-- ==== Sys2Proof/Config.lean ====
section
/-! DEFINITION. What is fixed for the machine (spec/00_scope.md R6 to R9) and the free values.

The widths, the counts, the capacity and the literals are the spec's parameters, each named once, here, at the spec's
default (DESIGN CHOICE, log 1, 2, 4). The definitions use the names only, so another machine of the spec is this model
with other numbers in this file.
The constants declared `opaque` have no body: no proof can see a value of theirs, so a claim holds for every value. -/

namespace Sys2Proof.Config

/-- Number of standalone channels (R7). -/
abbrev NCH : Nat := 4

/-- Number of tables (R7). -/
abbrev NTBL : Nat := 4

/-- Number of sequencers (R7). -/
abbrev NLED : Nat := 4

/-- Capacity of a table in breakpoints (R7). -/
abbrev CAP : Nat := 16

/-- Width of a microsecond value (R6). -/
abbrev TW : Nat := 32

/-- Width of a millisecond value (R6). -/
abbrev MW : Nat := 32

/-- Width of a breakpoint's `x` (R6). -/
abbrev XW : Nat := 32

/-- Width of a breakpoint's `y` (R6). -/
abbrev YW : Nat := 16

/-- Width of `duty` and of `full`: R6 requires `DW = YW`. -/
abbrev DW : Nat := YW

/-- Width of a pin mask (R6). -/
abbrev PW : Nat := 8

/-- Width of an intensity (R6). -/
abbrev IW : Nat := 16

/-- Fraction bits of an intensity (R6). -/
abbrev IFRAC : Nat := 8

/-- Width of the repeat operand of `TBL.NPLICATE`: fixed by 30_encoding.md R83. -/
abbrev NW : Nat := 16

/-- Width of a table index operand: fixed by 30_encoding.md R83. -/
abbrev TBLW : Nat := 8

/-- The intensity value one, `2^IFRAC` (R15). -/
abbrev ONE : BitVec IW := BitVec.ofNat IW (2 ^ IFRAC)

/-- The default `full` of a channel (R8). -/
abbrev FULL_DUTY_DEFAULT : BitVec DW := 100

/-- The throttle of a sequencer in milliseconds (R8). -/
abbrev THROTTLE_MS : Nat := 50

/-- The duty of the high level of a preset (R9). -/
abbrev Y_HIGH : Nat := 100

/-- The duty of the low level of a preset (R9). -/
abbrev Y_LOW : Nat := 0

/-- The period of the constant presets (R9). -/
abbrev CONST_PERIOD : Nat := 1000

/-- The fixed period of a sequencer's embedded channel, in microseconds: `OPEN` in the spec (R9, D20), so a constant
nothing is known of. DESIGN CHOICE, log 3, safe. -/
opaque LED_CARRIER_PERIOD : BitVec TW

/-- `any_TW`, the hold the model must not fix (40_pwm_toggler.md R110), numbered by the counter `draws` of the state.
A free value, log 8, safe. -/
opaque anyTW : Nat → BitVec TW

/-- `any_YW`, the lookup result the model must not fix (41_table.md R139), numbered by `draws`.
A free value, log 9, safe. -/
opaque anyYW : Nat → BitVec YW

/-- The elapsed count `E` of 20_memory.md R67 between a sample of `clk_us` and the next reading of it, where the state
lists none. A free value, log 5, safe. -/
opaque elapsedUs : Nat → Nat

/-- The same for `clk_ms`; nothing relates the two clocks (D12). A free value, log 5, safe. -/
opaque elapsedMs : Nat → Nat

end Sys2Proof.Config
end

