-- ==== Sys2Proof/Word.lean ====
section
/-! DEFINITION. The widths of the block's quantities as types (spec/00_scope.md R6, R10).

Every stored quantity is an unsigned number of a stated width. The widths of R6 are the parameters of
Sys2Proof/Config.lean, and no other file writes one of them as a number. `+` and `-` on these types are the spec's `+W`
and `-W` (R11); exact arithmetic is done on `toNat`. -/

namespace Sys2Proof

/-- A microsecond value: `clk_us`, `period`, `last_sw`, `keep`. -/
abbrev Us := BitVec Config.TW

/-- A millisecond value: `clk_ms`, `anchor`, `last_upd`. -/
abbrev Ms := BitVec Config.MW

/-- The `x` of a breakpoint. -/
abbrev XVal := BitVec Config.XW

/-- The `y` of a breakpoint. -/
abbrev YVal := BitVec Config.YW

/-- `duty` and `full`. -/
abbrev Duty := BitVec Config.DW

/-- The output port and a pin mask. -/
abbrev Pins := BitVec Config.PW

/-- An intensity, fixed point with `IFRAC` fraction bits (10_state.md R39). -/
abbrev Gain := BitVec Config.IW

/-- The repeat operand of `TBL.NPLICATE` (30_encoding.md R83). -/
abbrev Repeat := BitVec Config.NW

/-- The `unit` field of a command and a table index operand (30_encoding.md R81, R83). -/
abbrev Unit8 := BitVec 8

/-- One operand slot of the command word, and one result of the response (30_encoding.md R81, R84). -/
abbrev Slot := BitVec 32

/-- The command word (30_encoding.md R81). -/
abbrev Cmd := BitVec 144

end Sys2Proof
end

