-- ==== Sys2Proof/Syntax.lean ====
section
/-! DEFINITION. The commands of the block: one constructor per row of spec/opcode_table.json (30_encoding.md R86). -/

namespace Sys2Proof

/-- A command with its operands at their own widths. The first argument of each is the `unit` field as the word carries
it; whether it names an instance is WellFormed's check (30_encoding.md R88). -/
inductive Instr where
  /-- `PWM.INIT c, pin, period, duty, full` (R101). -/
  | pwmInit (c : Unit8) (pin : Pins) (period : Us) (duty full : Duty)
  /-- `PWM.POLL c` (R105). -/
  | pwmPoll (c : Unit8)
  /-- `PWM.SETDUTY c, duty` (R107). -/
  | pwmSetDuty (c : Unit8) (duty : Duty)
  /-- `PWM.SETPERIOD c, period` (R108). -/
  | pwmSetPeriod (c : Unit8) (period : Us)
  /-- `TBL.INIT t` (R121). -/
  | tblInit (t : Unit8)
  /-- `TBL.PUSH t, x, y` (R123). -/
  | tblPush (t : Unit8) (x : XVal) (y : YVal)
  /-- `TBL.MIRROR t` (R126). -/
  | tblMirror (t : Unit8)
  /-- `TBL.NPLICATE t, n` (R130). -/
  | tblNplicate (t : Unit8) (n : Repeat)
  /-- `TBL.INTERP t, x` (R134). -/
  | tblInterp (t : Unit8) (x : XVal)
  /-- `TBL.POP t` (R141). -/
  | tblPop (t : Unit8)
  /-- `LED.INIT d, pin, intensity` (R151). -/
  | ledInit (d : Unit8) (pin : Pins) (intensity : Gain)
  /-- `LED.POLL d, tbl` (R153). -/
  | ledPoll (d : Unit8) (tbl : Unit8)
  /-- `LED.CYCLE d, tbl, N` (R160). -/
  | ledCycle (d : Unit8) (tbl : Unit8) (N : Ms)
  deriving DecidableEq, Repr

end Sys2Proof
end

