-- ==== Sys2Proof/WellFormed.lean ====
section
/-! DEFINITION. Which commands name instances that exist (spec/30_encoding.md R88). The operands' widths are their
types (R90); no other value is checked (R90: `duty > full`, `full = 0`, `period = 0`, ... are legal). -/

namespace Sys2Proof

/-- `c` is a channel index. -/
abbrev isChannel (c : Unit8) : Prop := c.toNat < Config.NCH

/-- `t` is a table index. -/
abbrev isTable (t : Unit8) : Prop := t.toNat < Config.NTBL

/-- `d` is a sequencer index. -/
abbrev isSequencer (d : Unit8) : Prop := d.toNat < Config.NLED

/-- R88: the unit is below the count of its group, and the `tbl` operand below the count of tables. -/
def Instr.wf : Instr → Bool
  | .pwmInit c _ _ _ _ => decide (isChannel c)
  | .pwmPoll c => decide (isChannel c)
  | .pwmSetDuty c _ => decide (isChannel c)
  | .pwmSetPeriod c _ => decide (isChannel c)
  | .tblInit t => decide (isTable t)
  | .tblPush t _ _ => decide (isTable t)
  | .tblMirror t => decide (isTable t)
  | .tblNplicate t _ => decide (isTable t)
  | .tblInterp t _ => decide (isTable t)
  | .tblPop t => decide (isTable t)
  | .ledInit d _ _ => decide (isSequencer d)
  | .ledPoll d t => decide (isSequencer d) && decide (isTable t)
  | .ledCycle d t _ => decide (isSequencer d) && decide (isTable t)

end Sys2Proof
end

