-- ==== Sys2Proof/Decode.lean ====
section
/-! DEFINITION. From the 144-bit command word to a command and back (spec/30_encoding.md R81 to R91).

`decode` is total and refuses an illegal word by name; `encode` is written from the same table of fields. -/

namespace Sys2Proof

/-! ## The fields of the word (R81) -/

/-- Bits 143:136. -/
def Cmd.op (w : Cmd) : BitVec 8 := w.extractLsb' 136 8

/-- Bits 135:128. -/
def Cmd.unit (w : Cmd) : Unit8 := w.extractLsb' 128 8

/-- Bits 127:96. -/
def Cmd.slotA (w : Cmd) : Slot := w.extractLsb' 96 32

/-- Bits 95:64. -/
def Cmd.slotB (w : Cmd) : Slot := w.extractLsb' 64 32

/-- Bits 63:32. -/
def Cmd.slotC (w : Cmd) : Slot := w.extractLsb' 32 32

/-- Bits 31:0. -/
def Cmd.slotD (w : Cmd) : Slot := w.extractLsb' 0 32

/-- The four slots in order. -/
def Cmd.slots (w : Cmd) : List Slot := [w.slotA, w.slotB, w.slotC, w.slotD]

/-- The word with the given fields, most significant field first. -/
def Cmd.pack (op : BitVec 8) (unit : Unit8) (a b c d : Slot) : Cmd := op ++ unit ++ a ++ b ++ c ++ d

/-! ## The opcode map (R86) -/

/-- The thirteen opcodes. -/
inductive Opcode where
  | pwmInit | pwmPoll | pwmSetDuty | pwmSetPeriod
  | tblInit | tblPush | tblMirror | tblNplicate | tblInterp | tblPop
  | ledInit | ledPoll | ledCycle
  deriving DecidableEq, Repr

/-- The numbers of R86. -/
def Opcode.code : Opcode → BitVec 8
  | .pwmInit => 0x10
  | .pwmPoll => 0x11
  | .pwmSetDuty => 0x12
  | .pwmSetPeriod => 0x13
  | .tblInit => 0x20
  | .tblPush => 0x21
  | .tblMirror => 0x22
  | .tblNplicate => 0x23
  | .tblInterp => 0x24
  | .tblPop => 0x25
  | .ledInit => 0x30
  | .ledPoll => 0x31
  | .ledCycle => 0x32

/-- All opcodes, in the table's order. -/
def Opcode.all : List Opcode :=
  [.pwmInit, .pwmPoll, .pwmSetDuty, .pwmSetPeriod, .tblInit, .tblPush, .tblMirror, .tblNplicate, .tblInterp, .tblPop,
    .ledInit, .ledPoll, .ledCycle]

/-- The opcode a byte stands for; every other value is reserved (R87). -/
def Opcode.ofByte (b : BitVec 8) : Option Opcode := Opcode.all.find? (fun o => o.code == b)

/-- The count the `unit` field must stay below: channels, tables or sequencers by group (R86, R88). -/
def Opcode.unitCount : Opcode → Nat
  | .pwmInit | .pwmPoll | .pwmSetDuty | .pwmSetPeriod => Config.NCH
  | .tblInit | .tblPush | .tblMirror | .tblNplicate | .tblInterp | .tblPop => Config.NTBL
  | .ledInit | .ledPoll | .ledCycle => Config.NLED

/-- The widths of the operands in slots A, B, C, D. The length of the list is the format of R82: none is Z, one is A,
two is AB, four is ABCD (R83, R86). -/
def Opcode.widths : Opcode → List Nat
  | .pwmInit => [Config.PW, Config.TW, Config.DW, Config.DW]
  | .pwmPoll => []
  | .pwmSetDuty => [Config.DW]
  | .pwmSetPeriod => [Config.TW]
  | .tblInit => []
  | .tblPush => [Config.XW, Config.YW]
  | .tblMirror => []
  | .tblNplicate => [Config.NW]
  | .tblInterp => [Config.XW]
  | .tblPop => []
  | .ledInit => [Config.PW, Config.IW]
  | .ledPoll => [Config.TBLW]
  | .ledCycle => [Config.TBLW, Config.MW]

/-- Whether slot A is a table index (R88). -/
def Opcode.hasTable : Opcode → Bool
  | .ledPoll | .ledCycle => true
  | _ => false

/-- The opcode of a command. -/
def Instr.opcode : Instr → Opcode
  | .pwmInit .. => .pwmInit
  | .pwmPoll .. => .pwmPoll
  | .pwmSetDuty .. => .pwmSetDuty
  | .pwmSetPeriod .. => .pwmSetPeriod
  | .tblInit .. => .tblInit
  | .tblPush .. => .tblPush
  | .tblMirror .. => .tblMirror
  | .tblNplicate .. => .tblNplicate
  | .tblInterp .. => .tblInterp
  | .tblPop .. => .tblPop
  | .ledInit .. => .ledInit
  | .ledPoll .. => .ledPoll
  | .ledCycle .. => .ledCycle

/-- The `unit` field of a command. -/
def Instr.unit : Instr → Unit8
  | .pwmInit c .. => c
  | .pwmPoll c => c
  | .pwmSetDuty c _ => c
  | .pwmSetPeriod c _ => c
  | .tblInit t => t
  | .tblPush t .. => t
  | .tblMirror t => t
  | .tblNplicate t _ => t
  | .tblInterp t _ => t
  | .tblPop t => t
  | .ledInit d .. => d
  | .ledPoll d _ => d
  | .ledCycle d .. => d

/-! ## Decoding (R87 to R91) -/

/-- Why a word is no command. Every one of them has the same effect, the response `ILLEGAL_COMMAND` (R91). -/
inductive Illegal where
  /-- `op` is not in the table (R87). -/
  | reservedOpcode
  /-- `unit` is not below the count of its group (R88). -/
  | unitOutOfRange
  /-- A slot the format does not use is not zero (R89). -/
  | unusedSlotNonzero
  /-- An operand has a bit above its width (R90). -/
  | operandTooWide
  /-- The `tbl` operand is not below the count of tables (R88). -/
  | tableOutOfRange
  deriving DecidableEq, Repr

/-- R89: the slots the format does not use are zero. -/
def Opcode.unusedZero (o : Opcode) (w : Cmd) : Bool := (w.slots.drop o.widths.length).all (fun v => v == 0)

/-- R90: `slot[31:W]` is zero for the operand of width `W` in it. -/
def Opcode.operandsFit (o : Opcode) (w : Cmd) : Bool :=
  (List.zip w.slots o.widths).all (fun p => decide (p.1.toNat < 2 ^ p.2))

/-- R88: the `tbl` operand names a table. -/
def Opcode.tableInRange (o : Opcode) (w : Cmd) : Bool := !o.hasTable || decide (w.slotA.toNat < Config.NTBL)

/-- The command with the operands of `w`: an operand of width `W`, which is its type's, is `slot[W-1:0]` (R83). -/
def Opcode.build (o : Opcode) (w : Cmd) : Instr :=
  match o with
  | .pwmInit => .pwmInit w.unit (w.slotA.setWidth _) (w.slotB.setWidth _) (w.slotC.setWidth _) (w.slotD.setWidth _)
  | .pwmPoll => .pwmPoll w.unit
  | .pwmSetDuty => .pwmSetDuty w.unit (w.slotA.setWidth _)
  | .pwmSetPeriod => .pwmSetPeriod w.unit (w.slotA.setWidth _)
  | .tblInit => .tblInit w.unit
  | .tblPush => .tblPush w.unit (w.slotA.setWidth _) (w.slotB.setWidth _)
  | .tblMirror => .tblMirror w.unit
  | .tblNplicate => .tblNplicate w.unit (w.slotA.setWidth _)
  | .tblInterp => .tblInterp w.unit (w.slotA.setWidth _)
  | .tblPop => .tblPop w.unit
  | .ledInit => .ledInit w.unit (w.slotA.setWidth _) (w.slotB.setWidth _)
  | .ledPoll => .ledPoll w.unit (w.slotA.setWidth _)
  | .ledCycle => .ledCycle w.unit (w.slotA.setWidth _) (w.slotB.setWidth _)

/-- R91: the tests in the rule's order. -/
def decode (w : Cmd) : Except Illegal Instr :=
  match Opcode.ofByte w.op with
  | none => .error .reservedOpcode
  | some o =>
    if o.unitCount ≤ w.unit.toNat then .error .unitOutOfRange
    else if o.unusedZero w = false then .error .unusedSlotNonzero
    else if o.operandsFit w = false then .error .operandTooWide
    else if o.tableInRange w = false then .error .tableOutOfRange
    else .ok (o.build w)

/-- The opcode table's word of `nbits` bits, read as the command word: one word of 144 bits, bit 0 its least
significant bit (DEDUCED, log 18: spec/opcode_table.json gives `word_bits` 144 and `match`, `mask` over that number). -/
def decodeTableWord (nbits w : Nat) : Option Instr := (decode (BitVec.ofNat 144 (w % 2 ^ nbits))).toOption

/-! ## Encoding -/

/-- An operand right-aligned in its slot, high bits zero (R83). -/
def toSlot {n : Nat} (v : BitVec n) : Slot := v.setWidth _

/-- The word of a command (R81 to R83, R86). -/
def encode (i : Instr) : Cmd :=
  match i with
  | .pwmInit c pin period duty full => Cmd.pack i.opcode.code c (toSlot pin) (toSlot period) (toSlot duty) (toSlot full)
  | .pwmPoll c => Cmd.pack i.opcode.code c 0 0 0 0
  | .pwmSetDuty c duty => Cmd.pack i.opcode.code c (toSlot duty) 0 0 0
  | .pwmSetPeriod c period => Cmd.pack i.opcode.code c (toSlot period) 0 0 0
  | .tblInit t => Cmd.pack i.opcode.code t 0 0 0 0
  | .tblPush t x y => Cmd.pack i.opcode.code t (toSlot x) (toSlot y) 0 0
  | .tblMirror t => Cmd.pack i.opcode.code t 0 0 0 0
  | .tblNplicate t n => Cmd.pack i.opcode.code t (toSlot n) 0 0 0
  | .tblInterp t x => Cmd.pack i.opcode.code t (toSlot x) 0 0 0
  | .tblPop t => Cmd.pack i.opcode.code t 0 0 0 0
  | .ledInit d pin g => Cmd.pack i.opcode.code d (toSlot pin) (toSlot g) 0 0
  | .ledPoll d tbl => Cmd.pack i.opcode.code d (toSlot tbl) 0 0 0
  | .ledCycle d tbl n => Cmd.pack i.opcode.code d (toSlot tbl) (toSlot n) 0 0

/-! ## The table of matches and masks (R91), transcribed from spec/opcode_table.json -/

/-- R91: a word `w` is the legal command of a row exactly when `w & mask = match`. The columns are the spec's, computed for
the default parameters; nothing but a statement uses them. -/
def Opcode.rowMask : Opcode → Cmd
  | .pwmInit => 0xFFFCFFFFFF0000000000FFFF0000FFFF0000#144
  | .pwmPoll => 0xFFFCFFFFFFFFFFFFFFFFFFFFFFFFFFFFFFFF#144
  | .pwmSetDuty => 0xFFFCFFFF0000FFFFFFFFFFFFFFFFFFFFFFFF#144
  | .pwmSetPeriod => 0xFFFC00000000FFFFFFFFFFFFFFFFFFFFFFFF#144
  | .tblInit => 0xFFFCFFFFFFFFFFFFFFFFFFFFFFFFFFFFFFFF#144
  | .tblPush => 0xFFFC00000000FFFF0000FFFFFFFFFFFFFFFF#144
  | .tblMirror => 0xFFFCFFFFFFFFFFFFFFFFFFFFFFFFFFFFFFFF#144
  | .tblNplicate => 0xFFFCFFFF0000FFFFFFFFFFFFFFFFFFFFFFFF#144
  | .tblInterp => 0xFFFC00000000FFFFFFFFFFFFFFFFFFFFFFFF#144
  | .tblPop => 0xFFFCFFFFFFFFFFFFFFFFFFFFFFFFFFFFFFFF#144
  | .ledInit => 0xFFFCFFFFFF00FFFF0000FFFFFFFFFFFFFFFF#144
  | .ledPoll => 0xFFFCFFFFFFFCFFFFFFFFFFFFFFFFFFFFFFFF#144
  | .ledCycle => 0xFFFCFFFFFFFC00000000FFFFFFFFFFFFFFFF#144

/-- The `match` column. -/
def Opcode.rowMatch : Opcode → Cmd
  | .pwmInit => 0x100000000000000000000000000000000000#144
  | .pwmPoll => 0x110000000000000000000000000000000000#144
  | .pwmSetDuty => 0x120000000000000000000000000000000000#144
  | .pwmSetPeriod => 0x130000000000000000000000000000000000#144
  | .tblInit => 0x200000000000000000000000000000000000#144
  | .tblPush => 0x210000000000000000000000000000000000#144
  | .tblMirror => 0x220000000000000000000000000000000000#144
  | .tblNplicate => 0x230000000000000000000000000000000000#144
  | .tblInterp => 0x240000000000000000000000000000000000#144
  | .tblPop => 0x250000000000000000000000000000000000#144
  | .ledInit => 0x300000000000000000000000000000000000#144
  | .ledPoll => 0x310000000000000000000000000000000000#144
  | .ledCycle => 0x320000000000000000000000000000000000#144

end Sys2Proof
end

