-- ==== Sys2Proof/Machine/State.lean ====
section
/-! DEFINITION. The state of the block and of its ports, as plain data (spec/10_state.md; 20_memory.md R62 to R68;
30_encoding.md R80, R84; 42_led_sequencer.md R157, R160), and its value after reset (10_state.md R46). -/

namespace Sys2Proof.Machine

/-! ## Registers of the block -/

/-- The seven registers of a channel, standalone or embedded (R22). -/
structure Chan where
  /-- The mask over the output port (R23). -/
  pin : Pins
  /-- A count of microseconds (R24). -/
  period : Us
  /-- The numerator of the duty cycle (R25). -/
  duty : Duty
  /-- The denominator of the duty cycle (R26). -/
  full : Duty
  /-- The on/off flag, the only flag of the block (R27, R43). -/
  on : Bool
  /-- The sample of `clk_us` of the last poll that passed the time test, or of construction (R28). -/
  lastSw : Us
  /-- The armed hold duration (R29). -/
  keep : Us
  deriving DecidableEq, Repr

/-- A breakpoint (R32). -/
structure Breakpoint where
  x : XVal
  y : YVal
  deriving DecidableEq, Repr

/-- A table: its populated entries in insertion order (R32, R33). The counter `size[t]` is the length of the list; the
entries at `size[t]` and above hold no value (R33), so nothing stands for them (log 17). -/
abbrev Table := List Breakpoint

/-- The registers of a sequencer (R38). -/
structure Seq where
  /-- The embedded channel. -/
  ch : Chan
  /-- Fixed point with `IFRAC` fraction bits (R39). -/
  intensity : Gain
  /-- The phase anchor (R40). -/
  anchor : Ms
  /-- The sample of `clk_ms` at the last throttle tick, or at construction (R41). -/
  lastUpd : Ms
  deriving DecidableEq, Repr

/-! ## What is in progress -/

/-- The values local to a running `LED.CYCLE` (42_led_sequencer.md R160). -/
structure CycleJob where
  d : Fin Config.NLED
  t : Fin Config.NTBL
  t0 : Ms
  target : Ms
  deriving DecidableEq, Repr

/-- What the block is doing between two steps. -/
inductive Activity where
  /-- Idle, ready for a command (30_encoding.md R80). -/
  | idle
  /-- Inside the loop of `LED.CYCLE`: the only sequencing state inside a command (R21, R160; log 14). -/
  | cycling (job : CycleJob)
  /-- Hung: no response, no further command accepted; only a reset ends it (R157, R188; log 15). -/
  | hung
  deriving DecidableEq, Repr

/-! ## The ports -/

/-- The status codes (30_encoding.md R85); values `0x04 .. 0xFF` are never produced, so there are none. -/
inductive Status where
  | ok | capacityExceeded | emptyTable | illegalCommand
  deriving DecidableEq, Repr

/-- The response word by its fields (30_encoding.md R84). -/
structure Response where
  status : Status
  res0 : Slot
  res1 : Slot
  deriving DecidableEq, Repr

/-- The set-mask and clear-mask outputs towards `PORT` (20_memory.md R63). -/
inductive PortDrive where
  /-- Neither is presented. -/
  | none
  /-- `PortSet(m)`. -/
  | set (m : Pins)
  /-- `PortClear(m)`. -/
  | clear (m : Pins)
  deriving DecidableEq, Repr

/-- A clock input of width `w` (20_memory.md R66, R67): what it reads now, and the elapsed counts `E` that it will show after the
coming samples, the next one first. After them the elapsed counts are free values (log 5). -/
structure ClockIn (w : Nat) where
  now : BitVec w
  ahead : List Nat
  deriving DecidableEq, Repr

/-- What the environment does before a step of the block (log 13). -/
inductive EnvEvent where
  /-- Nothing: the block takes its step. -/
  | pass
  /-- The reset input (70_reset_and_hazards.md R200). -/
  | reset
  /-- Another agent writes the bits of `v` under `m` into `PORT` (20_memory.md R65). -/
  | portWrite (m v : Pins)
  deriving DecidableEq, Repr

/-! ## What the meanings compute on the way -/

/-- The outcome of `LinInterp` (41_table.md R135). -/
inductive Lookup where
  /-- The table has no entry: `EMPTY_TABLE`. -/
  | empty
  /-- Outside the contract: `any_YW` (R139). -/
  | outside
  /-- The result. -/
  | value (y : YVal)
  deriving DecidableEq, Repr

/-- The outcome of the throttle part of `LedPollBody` (42_led_sequencer.md R153). -/
inductive Tick where
  /-- Not a throttle tick (R158). -/
  | between
  /-- A tick on an empty table (R154). -/
  | empty
  /-- A tick on a table of period 0 (R157). -/
  | hang
  /-- A tick: the sequencer with its new `anchor`, `duty` and `last_upd`. -/
  | update (q : Seq)
  deriving DecidableEq, Repr

/-! ## Why a machine stops -/

/-- What stops the machine: nothing. The block's three faults are responses after which it goes on
(60_exceptions.md R184, R185), and its hang is a state (`Activity.hung`). No constructor, raised by none; safe (log 22). -/
inductive Fault where
  deriving DecidableEq, Repr

/-- What the model refuses to run. -/
inductive Refusal where
  /-- An instruction without a meaning yet, rejected by name in `exec`; raised by no arm of this model. Safe. -/
  | notModelled (mnemonic : String)
  deriving DecidableEq, Repr

/-! ## The state -/

/-- All the state the spec gives the block (10_state.md R20, R22, R32, R38, R45), with the ports held beside it. -/
structure State where
  /-- `ch[0 .. NCH-1]`. -/
  chans : Vector Chan Config.NCH
  /-- `tb[0 .. NTBL-1]`. -/
  tables : Vector Table Config.NTBL
  /-- `sq[0 .. NLED-1]`. -/
  seqs : Vector Seq Config.NLED
  /-- The command in progress, if any. -/
  activity : Activity
  /-- The response last presented; none after reset and while a command is in progress (log 16). -/
  resp : Option Response
  /-- The mask outputs of the step just taken (log 11). -/
  drive : PortDrive
  /-- `PORT`, the environment's register (20_memory.md R62; log 10). -/
  port : Pins
  /-- The input `clk_us`. -/
  clkUs : ClockIn Config.TW
  /-- The input `clk_ms`. -/
  clkMs : ClockIn Config.MW
  /-- The command words the host will issue, the next one first (log 12). -/
  cmds : List Cmd
  /-- What the environment will do, the next event first (log 13). -/
  env : List EnvEvent
  /-- The model's own: numbers the free values (log 7). -/
  draws : Nat
  deriving DecidableEq, Repr

/-- A channel at reset (R46). -/
def Chan.reset : Chan :=
  { pin := 0, period := 0, duty := 0, full := Config.FULL_DUTY_DEFAULT, on := false, lastSw := 0, keep := 0 }

/-- A sequencer at reset (R46). -/
def Seq.reset : Seq := { ch := Chan.reset, intensity := Config.ONE, anchor := 0, lastUpd := 0 }

/-- The machine right after reset: the registers of R46, the block idle (R200). Of the environment the spec gives no
start value; `port`, the clocks' readings, `resp`, `drive` and the inputs still to come are DESIGN CHOICE
(log 5, 6, 7, 10, 11, 12, 13, 16). -/
def State.reset : State :=
  { chans := Vector.replicate Config.NCH Chan.reset
    tables := Vector.replicate Config.NTBL []
    seqs := Vector.replicate Config.NLED Seq.reset
    activity := .idle
    resp := Option.none
    drive := .none
    port := 0
    clkUs := { now := 0, ahead := [] }
    clkMs := { now := 0, ahead := [] }
    cmds := []
    env := []
    draws := 0 }

end Sys2Proof.Machine
end

