-- ==== Sys2Proof/Machine/Flags.lean ====
section
/-! DEFINITION. The one flag of the block, `on` (10_state.md R27, R43): the tests that decide whether a poll changes it,
and the holds armed with it (40_pwm_toggler.md R104 to R106, R110). There are no condition codes. -/

namespace Sys2Proof.Machine

/-- R104: the poll with the sample `T` passes the time test: the wrapped difference has reached `keep`. -/
def Chan.due (k : Chan) (T : Us) : Bool := decide (k.keep.toNat ≤ (T - k.lastSw).toNat)

/-- R105 steps 2 and 3: a poll that passes the test makes a transition: an ON channel unless `duty = full`, an OFF
channel unless `duty = 0`. -/
def Chan.toggles (k : Chan) : Bool := if k.on then k.duty != k.full else k.duty != 0

/-- R106, R110: the holds have a value: `full > 0` and `duty <= full`. -/
def Chan.wellFormedDuty (k : Chan) : Bool := decide (0 < k.full.toNat) && decide (k.duty.toNat ≤ k.full.toNat)

/-- R15: `(p * n) div f`, exact product, floor quotient, as a `TW`-bit value. -/
def scale (p : Us) (n f : Nat) : Us := BitVec.ofNat Config.TW (p.toNat * n / f)

/-- R106: `(period * duty) div full`. -/
def Chan.holdOn (k : Chan) : Us := scale k.period k.duty.toNat k.full.toNat

/-- R106: `(period * (full - duty)) div full`. -/
def Chan.holdOff (k : Chan) : Us := scale k.period (k.full.toNat - k.duty.toNat) k.full.toNat

/-- The hold a transition arms: that of the side the channel goes to, or `any_TW` where the duty is malformed (R110);
`a` is the free value. -/
def Chan.nextHold (k : Chan) (a : Us) : Us :=
  if k.wellFormedDuty then (if k.on then k.holdOff else k.holdOn) else a

end Sys2Proof.Machine
end

