-- ==== Sys2Proof/Machine/Operands.lean ====
section
/-! DEFINITION. The forms of the operands: a unit or table index that must name an instance (30_encoding.md R88), a
result that goes zero-extended to its field (R84), the value a table lookup has at a query (41_table.md R135), a duty
scaled by an intensity (42_led_sequencer.md R156). -/

namespace Sys2Proof.Machine

/-- The instance an 8-bit index names among `n`, if any (30_encoding.md R88). -/
def instanceOf (n : Nat) (u : Unit8) : Option (Fin n) := if h : u.toNat < n then some ⟨u.toNat, h⟩ else none

/-- A result zero-extended to its 32-bit field (30_encoding.md R84). -/
def toResult {n : Nat} (v : BitVec n) : Slot := v.setWidth _

/-- The codes of R85. -/
def Status.code : Status → BitVec 8
  | .ok => 0x00
  | .capacityExceeded => 0x01
  | .emptyTable => 0x02
  | .illegalCommand => 0x03

/-- The response word (30_encoding.md R84): status in bits 71:64, `RES0` in 63:32, `RES1` in 31:0. -/
def Response.word (r : Response) : BitVec 72 := r.status.code ++ r.res0 ++ r.res1

/-- R135: the forward scan from index 1: the first pair of neighbours whose right end is above the query. -/
def bracket (q : XVal) : Breakpoint → List Breakpoint → Option (Breakpoint × Breakpoint)
  | _, [] => none
  | l, r :: rs => if q.toNat < r.x.toNat then some (l, r) else bracket q r rs

/-- R135, R136: `y0 + ((q - x0) * (y1 - y0)) quot (x1 - x0)`, exact over the integers, rounded toward zero. -/
def interpolate (l r : Breakpoint) (q : XVal) : Int :=
  (l.y.toNat : Int) +
    Int.tdiv (((q.toNat : Int) - l.x.toNat) * ((r.y.toNat : Int) - l.y.toNat)) ((r.x.toNat : Int) - l.x.toNat)

/-- `LinInterp(t, q)` (41_table.md R135 to R140). -/
def Table.lookup (es : Table) (q : XVal) : Lookup :=
  match es.getLast? with
  | none => .empty
  | some last =>
    if last.x.toNat ≤ q.toNat then .value 0
    else
      match es with
      | [] => .empty
      | e :: rest =>
        match bracket q e rest with
        | none => .outside
        | some (l, r) => if l.x.toNat ≤ q.toNat then .value (BitVec.ofInt Config.YW (interpolate l r q)) else .outside

/-- The value of a lookup, where `a` is what stands for `any_YW`. -/
def Lookup.get (l : Lookup) (a : YVal) : YVal :=
  match l with
  | .value y => y
  | .outside => a
  | .empty => a

/-- R156: `trunc_DW((y * intensity) div 2^IFRAC)` unless the intensity is `ONE`. -/
def scaleDuty (g : Gain) (y : YVal) : Duty :=
  if g = Config.ONE then y else BitVec.ofNat Config.DW (y.toNat * g.toNat / 2 ^ Config.IFRAC)

end Sys2Proof.Machine
end

