-- ==== Sys2Proof/Machine/Ops.lean ====
section
/-! DEFINITION. The named operations on the state that the meanings share: reading and writing an instance's registers,
sampling a clock, driving the port, responding, taking a fault, hanging, the reset input, taking the next command. -/

namespace Sys2Proof.Machine

/-! ## Registers -/

/-- `ch[c]`. -/
def State.chan (s : State) (c : Fin Config.NCH) : Chan := s.chans.get c

/-- `ch[c] <- k`. -/
def State.setChan (s : State) (c : Fin Config.NCH) (k : Chan) : State := { s with chans := s.chans.set c k }

/-- The populated entries of `tb[t]`. -/
def State.table (s : State) (t : Fin Config.NTBL) : Table := s.tables.get t

/-- The entries of `tb[t]` replaced, and `size[t]` with them. -/
def State.setTable (s : State) (t : Fin Config.NTBL) (es : Table) : State := { s with tables := s.tables.set t es }

/-- `sq[d]`. -/
def State.seq (s : State) (d : Fin Config.NLED) : Seq := s.seqs.get d

/-- `sq[d] <- q`. -/
def State.setSeq (s : State) (d : Fin Config.NLED) (q : Seq) : State := { s with seqs := s.seqs.set d q }

/-! ## Clock inputs (20_memory.md R66 to R68)

A sample is the present reading, `s.clkUs.now` or `s.clkMs.now`; after it the environment moves that clock on. -/

/-- The clock after an elapsed count: the next one listed, or the free value `e` (R67: `s2 = s1 +W E`). -/
def ClockIn.advance {w : Nat} (k : ClockIn w) (e : Nat) : ClockIn w :=
  match k.ahead with
  | [] => { k with now := k.now + BitVec.ofNat w e }
  | n :: rest => { now := k.now + BitVec.ofNat w n, ahead := rest }

/-- The state after one `SampleUs()`, whose value was `s.clkUs.now`. -/
def State.sampledUs (s : State) : State :=
  { s with clkUs := s.clkUs.advance (Config.elapsedUs s.draws), draws := s.draws + 1 }

/-- The state after one `SampleMs()`, whose value was `s.clkMs.now`. -/
def State.sampledMs (s : State) : State :=
  { s with clkMs := s.clkMs.advance (Config.elapsedMs s.draws), draws := s.draws + 1 }

/-! ## The output port (20_memory.md R63) -/

/-- `PORT` under a masked set or clear. -/
def PortDrive.apply (d : PortDrive) (p : Pins) : Pins :=
  match d with
  | .none => p
  | .set m => p ||| m
  | .clear m => p &&& ~~~m

/-- `PortSet` or `PortClear`, or neither: the mask output is presented and the port applies it. -/
def State.drivePort (s : State) (d : PortDrive) : State := { s with port := d.apply s.port, drive := d }

/-- The mask outputs of the last step are no longer presented (R63: "for one step"). -/
def State.quiet (s : State) : State := { s with drive := .none }

/-- Another agent's write of the bits under `m` (R65). -/
def State.otherAgentWrites (s : State) (m v : Pins) : State := { s with port := (s.port &&& ~~~m) ||| (v &&& m) }

/-! ## Ending a command -/

/-- `respond(st, r0, r1)` (00_scope.md R14): the command ends, the block is idle. -/
def State.respond (s : State) (st : Status) (r0 r1 : Slot) : State :=
  { s with resp := some { status := st, res0 := r0, res1 := r1 }, activity := .idle }

/-- The command ends with `OK` and no result. -/
def State.done (s : State) : State := s.respond .ok 0 0

/-- TAKING A FAULT (60_exceptions.md R184): the response `(status, 0, 0)` and nothing else. No state is saved, no mode
changes, there is no handler: the block is idle and the return from a fault (R185) is that the next step takes the next
command. Every meaning takes its faults before its first write. -/
def State.raise (s : State) (st : Status) : State := s.respond st 0 0

/-- The command goes on, or never ends: no response. -/
def State.busy (s : State) (a : Activity) : State := { s with activity := a, resp := Option.none }

/-- `hang` (00_scope.md R14; 42_led_sequencer.md R157). -/
def State.hang (s : State) : State := s.busy .hung

/-- R88: the command runs on the instance its index names, and is illegal where it names none. -/
def onInstance (n : Nat) (u : Unit8) (s : State) (f : Fin n → State) : Host.Outcome State Fault Refusal :=
  match instanceOf n u with
  | none => .next (s.raise .illegalCommand)
  | some k => .next (f k)

/-! ## The host and the reset input -/

/-- The reset input (70_reset_and_hazards.md R200): every register at the value of R46, any command in progress ended
without a response; `PORT`, the clocks and what the environment still does are untouched. -/
def State.applyReset (s : State) : State :=
  { State.reset with
    port := s.port, clkUs := s.clkUs, clkMs := s.clkMs, cmds := s.cmds, env := s.env, draws := s.draws }

/-- The next command word and the state once the block has accepted it (30_encoding.md R80). -/
def State.takeCommand (s : State) : Option (Cmd × State) :=
  match s.cmds with
  | [] => none
  | w :: ws => some (w, { s with cmds := ws })

/-- The state in which the host presents the word `w` next: the block idle, the environment passing, `w` before the
other commands (log 12). -/
def State.present (s : State) (w : Cmd) : State :=
  { s with activity := .idle, env := .pass :: s.env, cmds := w :: s.cmds }

end Sys2Proof.Machine
end

