-- ==== Sys2Proof/Machine/Interpolator.lean ====
section
/-! DEFINITION. The table interpolator commands (spec/41_table.md): the builders on lists of breakpoints and the meanings
of `TBL.INIT`, `TBL.PUSH`, `TBL.MIRROR`, `TBL.NPLICATE`, `TBL.INTERP`, `TBL.POP`. -/

namespace Sys2Proof.Machine

/-- R126: a breakpoint reflected about `P`: `(P +XW P) -XW x`. -/
def Breakpoint.reflect (P : XVal) (e : Breakpoint) : Breakpoint := { e with x := (P + P) - e.x }

/-- R130: a breakpoint shifted by `trunc_XW(j * P)`. -/
def Breakpoint.shift (P : XVal) (j : Nat) (e : Breakpoint) : Breakpoint :=
  { e with x := e.x + BitVec.ofNat Config.XW (j * P.toNat) }

/-- R126: the old entries, then all of them but the last, backwards, reflected about the last `x`. -/
def Table.mirrored (es : Table) (P : XVal) : Table := es ++ (es.dropLast.reverse.map (Breakpoint.reflect P))

/-- R130: the old entries, then `n` copies, copy `j` shifted by `j * P`. -/
def Table.nplicated (es : Table) (P : XVal) (n : Nat) : Table :=
  es ++ (List.range n).flatMap (fun j => es.map (Breakpoint.shift P (j + 1)))

/-- `TBL.INIT` (R121). -/
def execTblInit (t : Unit8) (s : State) : Host.Outcome State Fault Refusal :=
  onInstance Config.NTBL t s fun t => (s.setTable t []).done

/-- `TBL.PUSH` (R123, R124). -/
def execTblPush (t : Unit8) (x : XVal) (y : YVal) (s : State) : Host.Outcome State Fault Refusal :=
  onInstance Config.NTBL t s fun t =>
    if Config.CAP < (s.table t).length + 1 then s.raise .capacityExceeded
    else (s.setTable t (s.table t ++ [{ x := x, y := y }])).done

/-- `TBL.MIRROR` (R126 to R129). -/
def execTblMirror (t : Unit8) (s : State) : Host.Outcome State Fault Refusal :=
  onInstance Config.NTBL t s fun t =>
    match (s.table t).getLast? with
    | none => s.raise .emptyTable
    | some last =>
      if Config.CAP < 2 * (s.table t).length - 1 then s.raise .capacityExceeded
      else (s.setTable t ((s.table t).mirrored last.x)).done

/-- `TBL.NPLICATE` (R130 to R133). -/
def execTblNplicate (t : Unit8) (n : Repeat) (s : State) : Host.Outcome State Fault Refusal :=
  onInstance Config.NTBL t s fun t =>
    match (s.table t).getLast? with
    | none => s.raise .emptyTable
    | some last =>
      if Config.CAP < (s.table t).length * (n.toNat + 1) then s.raise .capacityExceeded
      else (s.setTable t ((s.table t).nplicated last.x n.toNat)).done

/-- `TBL.INTERP` (R134 to R140). A query outside the contract uses up one number of the free values (log 9). -/
def execTblInterp (t : Unit8) (x : XVal) (s : State) : Host.Outcome State Fault Refusal :=
  onInstance Config.NTBL t s fun t =>
    match Table.lookup (s.table t) x with
    | .empty => s.raise .emptyTable
    | .outside => { s with draws := s.draws + 1 }.respond .ok (toResult (Config.anyYW s.draws)) 0
    | .value y => s.respond .ok (toResult y) 0

/-- `TBL.POP` (R141). -/
def execTblPop (t : Unit8) (s : State) : Host.Outcome State Fault Refusal :=
  onInstance Config.NTBL t s fun t =>
    match (s.table t).getLast? with
    | none => s.raise .emptyTable
    | some last => (s.setTable t (s.table t).dropLast).respond .ok (toResult last.x) (toResult last.y)

end Sys2Proof.Machine
end

