-- ==== Sys2Proof/Machine/Toggler.lean ====
section
/-! DEFINITION. The PWM toggler commands (spec/40_pwm_toggler.md): `ChanInit`, `ChanPoll`, and the meanings of
`PWM.INIT`, `PWM.POLL`, `PWM.SETDUTY`, `PWM.SETPERIOD`. -/

namespace Sys2Proof.Machine

/-- `ChanInit` (R101). -/
def Chan.init (pin : Pins) (period : Us) (duty full : Duty) (T : Us) : Chan :=
  { pin := pin, period := period, duty := duty, full := full, on := false, lastSw := T, keep := 0 }

/-- The channel after a poll that samples `T` (R105); `a` is the free value of R110. -/
def Chan.polled (k : Chan) (T a : Us) : Chan :=
  if k.due T then
    if k.toggles then { k with on := !k.on, keep := k.nextHold a, lastSw := T }
    else { k with keep := k.period, lastSw := T }
  else k

/-- What a poll that samples `T` does to the port (R105): a set on the way to ON, a clear on the way to OFF. -/
def Chan.pollDrive (k : Chan) (T : Us) : PortDrive :=
  if k.due T && k.toggles then (if k.on then .clear k.pin else .set k.pin) else .none

/-- `ChanPoll(k)` in state `s` (R105): the channel after it. -/
def State.polledChan (s : State) (k : Chan) : Chan := k.polled s.clkUs.now (Config.anyTW s.draws)

/-- `ChanPoll(k)` in state `s` (R105): the state after it, but for the channel. -/
def State.afterPoll (s : State) (k : Chan) : State := s.sampledUs.drivePort (k.pollDrive s.clkUs.now)

/-- `PWM.INIT` (R101, R102). -/
def execPwmInit (c : Unit8) (pin : Pins) (period : Us) (duty full : Duty) (s : State) :
    Host.Outcome State Fault Refusal :=
  onInstance Config.NCH c s fun c =>
    (s.sampledUs.setChan c (Chan.init pin period duty full s.clkUs.now)).done

/-- `PWM.POLL` (R105). -/
def execPwmPoll (c : Unit8) (s : State) : Host.Outcome State Fault Refusal :=
  onInstance Config.NCH c s fun c => ((s.afterPoll (s.chan c)).setChan c (s.polledChan (s.chan c))).done

/-- `PWM.SETDUTY` (R107). -/
def execPwmSetDuty (c : Unit8) (duty : Duty) (s : State) : Host.Outcome State Fault Refusal :=
  onInstance Config.NCH c s fun c => (s.setChan c { s.chan c with duty := duty }).done

/-- `PWM.SETPERIOD` (R108). -/
def execPwmSetPeriod (c : Unit8) (period : Us) (s : State) : Host.Outcome State Fault Refusal :=
  onInstance Config.NCH c s fun c => (s.setChan c { s.chan c with period := period }).done

end Sys2Proof.Machine
end

