-- ==== Sys2Proof/Machine/Sequencer.lean ====
section
/-! DEFINITION. The brightness sequencer commands (spec/42_led_sequencer.md): `LedPollBody`, the loop of `LED.CYCLE`, and
the meanings of `LED.INIT`, `LED.POLL`, `LED.CYCLE`. -/

namespace Sys2Proof.Machine

/-- The anchor after the catch-up at `now`, in the closed form R155 gives: `now -MW ((now -MW anchor) mod P)`. It is what
the loop of R153 (`catchUp`) ends with, which is a statement of its own; the closed form is taken so that a long time
between two polls is no long computation (DEDUCED, log 19). -/
def Seq.caughtUp (q : Seq) (P : XVal) (now : Ms) : Ms :=
  now - BitVec.ofNat Config.MW ((now - q.anchor).toNat % P.toNat)

/-- R153: the catch-up loop as the pseudocode has it, `while (now -MW a) >= P do a <- a +MW trunc_MW(P)`, run for at most
`fuel` passes. -/
def catchUp (P : XVal) (now : Ms) : Nat → Ms → Ms
  | 0, a => a
  | fuel + 1, a => if P.toNat ≤ (now - a).toNat then catchUp P now fuel (a + P.setWidth _) else a

/-- R152: the throttle test. -/
def Seq.throttled (q : Seq) (now : Ms) : Bool := decide ((now - q.lastUpd).toNat < Config.THROTTLE_MS)

/-- The sequencer after a throttle tick at `now` on the table `es` of period `P > 0` (R153): anchor, duty, last_upd.
`a` stands for `any_YW`. -/
def Seq.ticked (q : Seq) (es : Table) (P : XVal) (now : Ms) (a : YVal) : Seq :=
  { q with
    anchor := q.caughtUp P now
    ch := { q.ch with duty := scaleDuty q.intensity ((Table.lookup es ((now - q.caughtUp P now).setWidth _)).get a) }
    lastUpd := now }

/-- The throttle part of `LedPollBody` (R153): what the sample `now` leads to. -/
def Seq.tick (q : Seq) (es : Table) (now : Ms) (a : YVal) : Tick :=
  if q.throttled now then .between
  else
    match es.getLast? with
    | none => .empty
    | some last => if last.x = 0 then .hang else .update (q.ticked es last.x now a)

/-- `ChanPoll(sq[d].ch)` (R153). -/
def State.pollEmbedded (s : State) (d : Fin Config.NLED) : State :=
  (s.afterPoll (s.seq d).ch).setSeq d { s.seq d with ch := s.polledChan (s.seq d).ch }

/-- `LedPollBody(d, t)` (R153), then `go` on what it leaves; a fault or a hang ends the command instead. -/
def State.ledPollBody (s : State) (d : Fin Config.NLED) (t : Fin Config.NTBL) (go : State → State) : State :=
  match (s.seq d).tick (s.table t) s.clkMs.now (Config.anyYW s.draws) with
  | .between => go (s.sampledMs.pollEmbedded d)
  | .empty => s.sampledMs.raise .emptyTable
  | .hang => s.sampledMs.hang
  | .update q => go ((s.sampledMs.setSeq d q).pollEmbedded d)

/-- One pass of the loop of `LED.CYCLE` (R160): the loop test on a sample of `clk_ms`, then the end of the command or
one `LedPollBody` (log 14). -/
def State.cyclePass (s : State) (j : CycleJob) : State :=
  if j.target.toNat ≤ (s.clkMs.now - j.t0).toNat then s.sampledMs.done
  else s.sampledMs.ledPollBody j.d j.t (fun s' => s'.busy (.cycling j))

/-- R160: `trunc_MW(N * tperiod(t))`. -/
def cycleTarget (N : Ms) (P : XVal) : Ms := BitVec.ofNat Config.MW (N.toNat * P.toNat)

/-- `LED.INIT` (R151). -/
def execLedInit (d : Unit8) (pin : Pins) (intensity : Gain) (s : State) : Host.Outcome State Fault Refusal :=
  onInstance Config.NLED d s fun d =>
    (s.sampledMs.sampledUs.setSeq d
      { ch := Chan.init pin Config.LED_CARRIER_PERIOD 0 Config.FULL_DUTY_DEFAULT s.sampledMs.clkUs.now
        intensity := intensity
        anchor := s.clkMs.now
        lastUpd := s.clkMs.now }).done

/-- `LED.POLL` (R153). -/
def execLedPoll (d tbl : Unit8) (s : State) : Host.Outcome State Fault Refusal :=
  onInstance Config.NLED d s fun d =>
    match instanceOf Config.NTBL tbl with
    | none => s.raise .illegalCommand
    | some t => s.ledPollBody d t State.done

/-- `LED.CYCLE` (R160): the start and the first pass of its loop. Where the loop goes on, the block is busy with it and
each further step is one pass (log 14). -/
def execLedCycle (d tbl : Unit8) (N : Ms) (s : State) : Host.Outcome State Fault Refusal :=
  onInstance Config.NLED d s fun d =>
    match instanceOf Config.NTBL tbl with
    | none => s.raise .illegalCommand
    | some t =>
      match (s.table t).getLast? with
      | none => s.raise .emptyTable
      | some last =>
        s.sampledMs.cyclePass { d := d, t := t, t0 := s.clkMs.now, target := cycleTarget N last.x }

end Sys2Proof.Machine
end

