-- ==== Sys2Proof/Machine/Dispatch.lean ====
section
/-! DEFINITION. One arm per command (spec/30_encoding.md R86). -/

namespace Sys2Proof.Machine

def exec (i : Instr) (s : State) : Host.Outcome State Fault Refusal :=
  match i with
  | .pwmInit c pin period duty full => Sys2Proof.Machine.execPwmInit c pin period duty full s
  | .pwmPoll c => Sys2Proof.Machine.execPwmPoll c s
  | .pwmSetDuty c duty => Sys2Proof.Machine.execPwmSetDuty c duty s
  | .pwmSetPeriod c period => Sys2Proof.Machine.execPwmSetPeriod c period s
  | .tblInit t => Sys2Proof.Machine.execTblInit t s
  | .tblPush t x y => Sys2Proof.Machine.execTblPush t x y s
  | .tblMirror t => Sys2Proof.Machine.execTblMirror t s
  | .tblNplicate t n => Sys2Proof.Machine.execTblNplicate t n s
  | .tblInterp t x => Sys2Proof.Machine.execTblInterp t x s
  | .tblPop t => Sys2Proof.Machine.execTblPop t s
  | .ledInit d pin intensity => Sys2Proof.Machine.execLedInit d pin intensity s
  | .ledPoll d tbl => Sys2Proof.Machine.execLedPoll d tbl s
  | .ledCycle d tbl N => Sys2Proof.Machine.execLedCycle d tbl N s

end Sys2Proof.Machine
end

