-- ==== Sys2Proof/Machine/Step.lean ====
section
/-! DEFINITION. One step of the machine: what the environment does first, then what the block does
(spec/10_state.md R21; 30_encoding.md R80, R87; 70_reset_and_hazards.md R200; log 12, 13, 14, 15). -/

namespace Sys2Proof.Machine

/-- A command word is run: an illegal one is answered and does nothing else (30_encoding.md R87). -/
def runCommand (w : Cmd) (s : State) : Host.Outcome State Fault Refusal :=
  match decode w with
  | .error _ => .next (s.raise .illegalCommand)
  | .ok i => exec i s

/-- The block's step: it stays hung, or makes the next pass of `LED.CYCLE`, or takes the next command, or stays idle
where the host presents none. -/
def blockStep (s : State) : Host.Outcome State Fault Refusal :=
  match s.activity with
  | .hung => .next s.quiet
  | .cycling j => .next (s.quiet.cyclePass j)
  | .idle =>
    match s.quiet.takeCommand with
    | none => .next s.quiet
    | some (w, s') => runCommand w s'

/-- One step: an event of the environment, or a step of the block. -/
def step (s : State) : Host.Outcome State Fault Refusal :=
  match s.env with
  | [] => blockStep s
  | .pass :: es => blockStep { s with env := es }
  | .reset :: es => .next { s with env := es }.applyReset
  | .portWrite m v :: es => .next ({ s with env := es }.quiet.otherAgentWrites m v)

/-- `s` with the table's word presented as the host's next command, so that the next step runs it (log 12, 18). -/
def State.withFetchWord (s : State) (nbits w : Nat) : State := s.present (BitVec.ofNat 144 (w % 2 ^ nbits))

end Sys2Proof.Machine
end

