-- ==== Sys2Proof/Machine/Presets.lean ====
section
/-! DEFINITION. The pseudo-instructions (spec/43_presets.md, 30_encoding.md R94, R95): each expands to a fixed sequence
of commands, and the host issues them in order until one is answered with a status other than `OK` (R170).

The arithmetic is the assembler's, over the natural numbers; a value that does not fit its operand rejects the line
(R170): then the expansion is `none`. -/

namespace Sys2Proof.Machine

/-- A natural number as an operand of width `n`, if it fits. -/
def operand (n v : Nat) : Option (BitVec n) := if v < 2 ^ n then some (BitVec.ofNat n v) else none

/-- `TBL.PUSH t, x, y` with numbers. -/
def pushNat (t : Unit8) (p : Nat × Nat) : Option Instr := do
  let x ← operand Config.XW p.1
  let y ← operand Config.YW p.2
  pure (.tblPush t x y)

/-- `TBL.PUSHN t, x1, y1, ..., xk, yk` with `k >= 1` (R171). The rule does not say what `k = 0` is; the model rejects the
line (DESIGN CHOICE, log 25). -/
def pushN (t : Unit8) (ps : List (Nat × Nat)) : Option (List Instr) :=
  match ps with
  | [] => none
  | p :: rest => (p :: rest).mapM (pushNat t)

/-- `MK.ON t` (R172). -/
def mkOn (t : Unit8) : Option (List Instr) := do
  let ps ← pushN t [(0, Config.Y_HIGH), (Config.CONST_PERIOD, Config.Y_HIGH)]
  pure (.tblInit t :: ps)

/-- `MK.OFF t` (R173). -/
def mkOff (t : Unit8) : Option (List Instr) := do
  let ps ← pushN t [(0, Config.Y_LOW), (Config.CONST_PERIOD, Config.Y_LOW)]
  pure (.tblInit t :: ps)

/-- `MK.BREATHE t, P` (R174). -/
def mkBreathe (t : Unit8) (P : Nat) : Option (List Instr) := do
  let ps ← pushN t [(0, 0), (P / 8, 0), (P / 3, 30), (P / 2, 100)]
  pure (.tblInit t :: ps ++ [.tblMirror t])

/-- `MK.BLINK t, N, on, off, pause` with `N >= 1` (R175). The rule does not say what `N = 0` is; the model rejects the line
(DESIGN CHOICE, log 25). -/
def mkBlink (t : Unit8) (N on off pause : Nat) : Option (List Instr) :=
  if N = 0 then none
  else do
    let ps ← pushN t [(0, Config.Y_HIGH), (on, Config.Y_HIGH), (on, Config.Y_LOW), (on + off, Config.Y_LOW)]
    let n ← operand Config.NW (N - 1)
    let last ← pushNat t (N * (on + off) + pause, Config.Y_LOW)
    pure (.tblInit t :: ps ++ [.tblNplicate t n, .tblPop t, last])

/-- The state's last response has status `OK`. -/
def State.answeredOk (s : State) : Bool :=
  match s.resp with
  | some r => r.status == .ok
  | none => false

/-- R170: the host issues the commands of an expansion in order, each once the one before was answered `OK`. -/
def issue : List Instr → State → Host.Outcome State Fault Refusal
  | [], s => .next s
  | i :: rest, s =>
    match exec i s with
    | .next t => if t.answeredOk then issue rest t else .next t
    | .fault r => .fault r
    | .refused r => .refused r

end Sys2Proof.Machine
end

