-- ==== Sys2Proof/Safety.lean ====
section
/-! DEFINITION. What a good state is, in the terms the statements use: the invariant every step keeps, the parts of a
state, the relations "nothing of the block was written" and "the same but for the port", the premise of R65 on who writes
a pin, and the rule of the poll as the spec writes it. -/

namespace Sys2Proof.Machine

/-! ## The invariant -/

/-- R35, R61: no table holds more than `CAP` entries. -/
abbrev State.tablesFit (s : State) : Prop := ∀ t : Fin Config.NTBL, (s.table t).length ≤ Config.CAP

/-- What holds of a command in progress: no response is presented while one runs (R80), and the table of a running
`LED.CYCLE` has an entry and a period that is not 0 (R161 (3)). -/
def State.activitySound (s : State) : Bool :=
  match s.activity with
  | .idle => true
  | .hung => s.resp == none
  | .cycling j => s.resp == none && (match (s.table j.t).getLast? with | some last => last.x != 0 | none => false)

/-- The invariant of the machine: it holds at reset and every step keeps it. -/
abbrev State.Inv (s : State) : Prop := s.tablesFit ∧ s.activitySound = true

/-! ## Parts of a state -/

/-- R184: no register of the block, no table entry and no port bit differs, and no mask output is newly presented. -/
abbrev State.sameBlock (s t : State) : Prop :=
  t.chans = s.chans ∧ t.tables = s.tables ∧ t.seqs = s.seqs ∧ t.port = s.port ∧ t.drive = s.drive

/-- No clock was sampled. -/
abbrev State.sameClocks (s t : State) : Prop := t.clkUs = s.clkUs ∧ t.clkMs = s.clkMs

/-- What the host and the environment still have in store is as it was. -/
abbrev State.sameInputs (s t : State) : Prop := t.cmds = s.cmds ∧ t.env = s.env

/-- The same state with another value of `PORT`. -/
abbrev State.withPort (s : State) (p : Pins) : State := { s with port := p }

/-- The state `s` after a command that ended with this response and wrote nothing else. -/
abbrev State.answered (s : State) (st : Status) (r0 r1 : Slot) : State :=
  { s with resp := some { status := st, res0 := r0, res1 := r1 }, activity := .idle }

/-- The state after one sample of `clk_us` (R68), whose value is `s.clkUs.now`. -/
abbrev State.pastUs (s : State) : State :=
  { s with clkUs := s.clkUs.advance (Config.elapsedUs s.draws), draws := s.draws + 1 }

/-- The state after one sample of `clk_ms` (R68), whose value is `s.clkMs.now`. -/
abbrev State.pastMs (s : State) : State :=
  { s with clkMs := s.clkMs.advance (Config.elapsedMs s.draws), draws := s.draws + 1 }

/-- The environment lets the block take this step: it has nothing left to do, or its next event is `pass` (log 13). -/
abbrev State.undisturbed (s : State) : Prop := s.env = [] ∨ s.env.head? = some .pass

/-- The state in which the block takes an undisturbed step: the event is used up, the mask outputs of the step before are
no longer presented (R63). -/
abbrev State.turn (s : State) : State := { s with env := s.env.tail, drive := .none }

/-- Idle, undisturbed, and the host presents the word `w` next. -/
abbrev State.presents (s : State) (w : Cmd) : Prop :=
  s.undisturbed ∧ s.activity = .idle ∧ s.cmds.head? = some w

/-- The state after the word the host presents was answered `ILLEGAL_COMMAND` and nothing else was done (R87). -/
abbrev State.refusedWord (s : State) : State :=
  ({ s.turn with cmds := s.cmds.tail } : State).answered .illegalCommand 0 0

/-- R87: wherever the host presents `w`, the block answers `ILLEGAL_COMMAND` and does nothing else. -/
abbrev runsAsIllegal (w : Cmd) : Prop := ∀ s : State, s.presents w → step s = .next s.refusedWord

/-! ## Who owns a pin (20_memory.md R65) -/

/-- A channel of the block: a standalone one, or the embedded one of a sequencer (10_state.md R20). -/
inductive ChanRef where
  | standalone (c : Fin Config.NCH)
  | embedded (d : Fin Config.NLED)
  deriving DecidableEq, Repr

/-- The registers of a channel. -/
abbrev State.chanAt (s : State) : ChanRef → Chan
  | .standalone c => s.chan c
  | .embedded d => (s.seq d).ch

/-- An event of the environment that writes no `PORT` bit under `p`. -/
def EnvEvent.spares (e : EnvEvent) (p : Pins) : Bool :=
  match e with
  | .pass => true
  | .reset => true
  | .portWrite m _ => m &&& p == 0

/-- THE PREMISE OF R65, which the block does not enforce and the model does not assume: no agent but the channel `r`
writes a `PORT` bit under the channel's `pin`. No other channel of the block, standalone or embedded, has a bit of it in
its own mask, and no other agent's coming write covers one. A claim about a pin's level takes it as a premise, in every
state it speaks of, since an `INIT` command can give another channel an overlapping mask. -/
abbrev State.soleOwner (s : State) (r : ChanRef) : Prop :=
  (∀ c, .standalone c ≠ r → (s.chan c).pin &&& (s.chanAt r).pin = 0) ∧
  (∀ d, .embedded d ≠ r → (s.seq d).ch.pin &&& (s.chanAt r).pin = 0) ∧
  ∀ e ∈ s.env, e.spares (s.chanAt r).pin = true

/-! ## The rules the statements compare the commands with -/

/-- 10_state.md R34: the `x` values do not decrease. -/
abbrev Table.sorted (es : Table) : Prop := es.Pairwise (fun a b => a.x.toNat ≤ b.x.toNat)

/-- A hold (40_pwm_toggler.md R106): `(period * n) div full`, or `any_TW`, which is `a`, where the duty is malformed
(R110). -/
def holdRule (k : Chan) (n : Nat) (a : Us) : Us :=
  if k.full = 0 ∨ k.full.toNat < k.duty.toNat then a else BitVec.ofNat Config.TW (k.period.toNat * n / k.full.toNat)

/-- `ChanPoll` as the pseudocode of 40_pwm_toggler.md R105 has it: the channel after a poll that samples `T`, and what
is done to the port. -/
def pollRule (k : Chan) (T a : Us) : Chan × PortDrive :=
  if (T - k.lastSw).toNat < k.keep.toNat then (k, .none)
  else if k.on = true then
    if k.duty ≠ k.full then
      ({ k with on := false, keep := holdRule k (k.full.toNat - k.duty.toNat) a, lastSw := T }, .clear k.pin)
    else ({ k with keep := k.period, lastSw := T }, .none)
  else if k.duty ≠ 0 then
    ({ k with on := true, keep := holdRule k k.duty.toNat a, lastSw := T }, .set k.pin)
  else ({ k with keep := k.period, lastSw := T }, .none)

/-- `PORT` under `PortSet` or `PortClear` (20_memory.md R63). -/
def portRule (d : PortDrive) (p : Pins) : Pins :=
  match d with
  | .none => p
  | .set m => p ||| m
  | .clear m => p &&& ~~~m

/-- The state after `ChanPoll(sq[d].ch)` (42_led_sequencer.md R153) on a sequencer whose registers are `q`. -/
def State.embeddedPollRule (s : State) (d : Fin Config.NLED) (q : Seq) : State :=
  let r := pollRule q.ch s.clkUs.now (Config.anyTW s.draws)
  { s.pastUs with
    seqs := s.seqs.set d { q with ch := r.1 }
    port := portRule r.2 s.port
    drive := r.2 }

/-- The duty after intensity scaling (42_led_sequencer.md R156). -/
def intensityRule (g : Gain) (y : YVal) : Duty :=
  if g = Config.ONE then y else BitVec.ofNat Config.DW (y.toNat * g.toNat / 2 ^ Config.IFRAC)

/-- The sequencer's registers after a throttle tick at `now` on a table of period `P > 0` (42_led_sequencer.md R153),
with the anchor and the phase in the closed form of R155; `a` is `any_YW`. -/
def tickRule (q : Seq) (es : Table) (P : XVal) (now : Ms) (a : YVal) : Seq :=
  let phase : Ms := BitVec.ofNat Config.MW ((now - q.anchor).toNat % P.toNat)
  { q with
    anchor := now - phase
    lastUpd := now
    ch := { q.ch with duty := intensityRule q.intensity ((Table.lookup es (phase.setWidth _)).get a) } }

/-- The registers of a sequencer that `LED.INIT` alone writes (10_state.md R22, R39; 42_led_sequencer.md R159). -/
abbrev Seq.sameConfig (q r : Seq) : Prop :=
  r.intensity = q.intensity ∧ r.ch.pin = q.ch.pin ∧ r.ch.period = q.ch.period ∧ r.ch.full = q.ch.full

/-- Entry `i` of `new` is entry `k` of `old` with its `x` changed by `f`. -/
abbrev sameEntry (new : Table) (i : Nat) (old : Table) (k : Nat) (f : XVal → XVal) : Prop :=
  new[i]? = (old[k]?).map (fun e => { x := f e.x, y := e.y })

end Sys2Proof.Machine
end

