-- ==== Sys2Proof/Certificates/Slice0/Obligations.lean ====
section
/-! DEFINITION. The statements for the provers. Each says which rule of spec/ it formalises; where it rests on a choice
of the model, the log entry is named. A full equation `exec i s = .next t` with `t` written as an update of `s` is the
result, the completion and the frame of that form in one. -/

open Sys2Proof Sys2Proof.Machine

/-! ## Command words (30_encoding.md) -/

/-- R81, R83, R86, R91: decoding the word of a well-formed command gives the command back, at every operand value. -/
def Obligations.DecodeOfEncodeIsTheCommand : Prop :=
  ∀ i : Instr, i.wf = true → decode (encode i) = .ok i

/-- R81, R88, R91: a legal word is the word of the command it decodes to, no bit of it is dropped, and the indices of
that command name instances that exist. -/
def Obligations.EncodeOfDecodeIsTheWord : Prop :=
  ∀ (w : Cmd) (i : Instr), decode w = .ok i → encode i = w ∧ i.wf = true

/-- R91: a word is the legal command of a row exactly when `w & mask = match`, with the columns of
spec/opcode_table.json. -/
def Obligations.LegalWordsAreTheTableRows : Prop :=
  ∀ (o : Opcode) (w : Cmd), w &&& o.rowMask = o.rowMatch ↔ ∃ i, decode w = .ok i ∧ i.opcode = o

/-- R87: the reserved values of `op` are all but thirteen, 243 of the 256, among them `0x00` and `0xFF`; a word with
one is answered `ILLEGAL_COMMAND`, and no state is written, no clock sampled, no port bit written. -/
def Obligations.ReservedOpcodesAreIllegal : Prop :=
  (Opcode.all.length + 243 = 2 ^ 8 ∧ (Opcode.all.map Opcode.code).Nodup ∧ ∀ o : Opcode, o ∈ Opcode.all) ∧
  (∀ o : Opcode, o.code ≠ 0x00 ∧ o.code ≠ 0xFF) ∧
  ∀ w : Cmd, (∀ o : Opcode, o.code ≠ w.op) → runsAsIllegal w

/-- R88: a `unit` not below the count of its group, or a `tbl` operand of `LED.POLL` or `LED.CYCLE` not below `NTBL`,
has the effect of R87. -/
def Obligations.OutOfRangeIndicesAreIllegal : Prop :=
  ∀ w : Cmd,
    (w.op.toNat / 16 = 1 ∧ Config.NCH ≤ w.unit.toNat → runsAsIllegal w) ∧
    (w.op.toNat / 16 = 2 ∧ Config.NTBL ≤ w.unit.toNat → runsAsIllegal w) ∧
    (w.op.toNat / 16 = 3 ∧ Config.NLED ≤ w.unit.toNat → runsAsIllegal w) ∧
    ((w.op = 0x31 ∨ w.op = 0x32) ∧ Config.NTBL ≤ w.slotA.toNat → runsAsIllegal w)

/-- R89: a slot the format does not use that is not zero has the effect of R87. -/
def Obligations.UnusedSlotsMustBeZero : Prop :=
  ∀ (o : Opcode) (w : Cmd), o.code = w.op → (∃ v ∈ w.slots.drop o.widths.length, v ≠ 0) → runsAsIllegal w

/-- R90: an operand with a bit above its width has the effect of R87, and no other value check is made: any operand
values within their widths, with a unit and a `tbl` in range, make a legal word. -/
def Obligations.OperandsMustFitAndNothingElseIsChecked : Prop :=
  (∀ (o : Opcode) (w : Cmd), o.code = w.op → (∃ p ∈ List.zip w.slots o.widths, 2 ^ p.2 ≤ p.1.toNat) →
    runsAsIllegal w) ∧
  (∀ (o : Opcode) (w : Cmd), o.code = w.op → w.unit.toNat < o.unitCount →
    (∀ v ∈ w.slots.drop o.widths.length, v = 0) → (∀ p ∈ List.zip w.slots o.widths, p.1.toNat < 2 ^ p.2) →
    ((o = .ledPoll ∨ o = .ledCycle) → w.slotA.toNat < Config.NTBL) → ∃ i, decode w = .ok i ∧ i.opcode = o)

/-- R88 at the level of the command, the model's choice for a command built with an index that names no instance (log
23): it answers `ILLEGAL_COMMAND` and does nothing else. -/
def Obligations.IllFormedCommandsAnswerIllegal : Prop :=
  ∀ (i : Instr) (s : State), i.wf = false → exec i s = .next (s.answered .illegalCommand 0 0)

/-- R96 and the words of 95_test_vectors.md V50: words written out by hand decode to the commands they stand for. -/
def Obligations.WorkedWordsDecode : Prop :=
  decode 0x100000000001000003E80000001900000064#144 = .ok (.pwmInit 0 1 1000 25 100) ∧
  decode 0x110000000000000000000000000000000000#144 = .ok (.pwmPoll 0) ∧
  decode 0x230100000001000000000000000000000000#144 = .ok (.tblNplicate 1 1) ∧
  decode 0x240200000096000000000000000000000000#144 = .ok (.tblInterp 2 150) ∧
  decode 0x310000000001000000000000000000000000#144 = .ok (.ledPoll 0 1) ∧
  decode 0x320000000001000000020000000000000000#144 = .ok (.ledCycle 0 1 2)

/-! ## One step (10_state.md R21, 30_encoding.md R80) -/

/-- R80, R21: where the host presents a word that decodes to `i`, the step is `exec i` at the state in which the word
was taken and the mask outputs of the step before are no longer presented; an event `pass` before it changes nothing. -/
def Obligations.StepRunsTheDecodedCommand : Prop :=
  ∀ (s : State) (w : Cmd) (ws : List Cmd) (i : Instr), decode w = .ok i → s.activity = .idle → s.cmds = w :: ws →
    (s.env = [] → step s = exec i { s with cmds := ws, drive := .none }) ∧
    (∀ es, s.env = .pass :: es → step s = exec i { s with cmds := ws, env := es, drive := .none })

/-- R84, R85: a response is 72 bits, the status code in 71:64, `RES0` in 63:32 and `RES1` in 31:0; the codes are 0x00 for
`OK`, 0x01 for `CAPACITY_EXCEEDED`, 0x02 for `EMPTY_TABLE`, 0x03 for `ILLEGAL_COMMAND`, and no other is produced; a
command that is answered another status than `OK` has zeros in the 64 bits below it. -/
def Obligations.ResponseWordLayout : Prop :=
  (∀ r : Response,
    r.word.extractLsb' 64 8 =
      (match r.status with
        | .ok => 0x00
        | .capacityExceeded => 0x01
        | .emptyTable => 0x02
        | .illegalCommand => 0x03) ∧
    r.word.extractLsb' 32 32 = r.res0 ∧ r.word.extractLsb' 0 32 = r.res1) ∧
  (∀ (i : Instr) (s t : State) (r : Response), exec i s = .next t → t.resp = some r →
    r.word.extractLsb' 64 8 ≠ 0 → r.word.extractLsb' 0 64 = 0)

/-- R67: the reading after a sample is the sampled one plus the elapsed count, modulo `2^TW` or `2^MW`: the next count the
state lists, or, where it lists none, some count (log 5). So the next sample of either clock after `LED.INIT`, which
samples both, differs from the stored one by the elapsed count modulo the width. -/
def Obligations.ClocksAdvanceByTheElapsedCount : Prop :=
  ∀ s : State,
    (∀ n us, s.clkUs.ahead = n :: us →
      s.pastUs.clkUs.now.toNat = (s.clkUs.now.toNat + n) % 2 ^ Config.TW ∧ s.pastUs.clkUs.ahead = us) ∧
    (s.clkUs.ahead = [] → s.pastUs.clkUs.ahead = [] ∧
      ∃ n, s.pastUs.clkUs.now.toNat = (s.clkUs.now.toNat + n) % 2 ^ Config.TW) ∧
    (∀ m ms, s.clkMs.ahead = m :: ms →
      s.pastMs.clkMs.now.toNat = (s.clkMs.now.toNat + m) % 2 ^ Config.MW ∧ s.pastMs.clkMs.ahead = ms) ∧
    (s.clkMs.ahead = [] → s.pastMs.clkMs.ahead = [] ∧
      ∃ m, s.pastMs.clkMs.now.toNat = (s.clkMs.now.toNat + m) % 2 ^ Config.MW) ∧
    (∀ (d : Unit8) (hd : isSequencer d) (pin : Pins) (g : Gain) (n m : Nat) (us ms : List Nat),
      s.clkUs.ahead = n :: us → s.clkMs.ahead = m :: ms → ∃ t, exec (.ledInit d pin g) s = .next t ∧
        (t.clkUs.now - (t.seq ⟨d.toNat, hd⟩).ch.lastSw).toNat = n % 2 ^ Config.TW ∧
        (t.clkMs.now - (t.seq ⟨d.toNat, hd⟩).anchor).toNat = m % 2 ^ Config.MW)

/-- R21, R195, R65: between commands the block is idle with all state kept (only the mask outputs, presented for one
step, R63, go away), and another agent's write reaches `PORT` under its mask and nothing else. The idle step and the
event are the model's (log 12, log 13). -/
def Obligations.StepsWithoutACommand : Prop :=
  (∀ s : State, s.undisturbed → s.activity = .idle → s.cmds = [] → step s = .next s.turn) ∧
  (∀ (s : State) (m v : Pins) (es : List EnvEvent), s.env = .portWrite m v :: es →
    step s = .next { s with env := es, drive := .none, port := (s.port &&& ~~~m) ||| (v &&& m) })

/-- R187, R184, R188: no state of the machine is one it cannot step from: every step answers a next state. -/
def Obligations.EveryStepAnswersANextState : Prop :=
  ∀ s : State, ∃ t, step s = .next t

/-! ## Reset (10_state.md R46, 70_reset_and_hazards.md R200) -/

/-- R46: the reset value of every register of the block; no table has an entry; reset writes nothing to `PORT`. -/
def Obligations.ResetValuesOfTheRegisters : Prop :=
  (∀ c : Fin Config.NCH, State.reset.chan c =
    { pin := 0, period := 0, duty := 0, full := 100, on := false, lastSw := 0, keep := 0 }) ∧
  (∀ t : Fin Config.NTBL, (State.reset.table t).length = 0) ∧
  (∀ d : Fin Config.NLED, State.reset.seq d =
    { ch := { pin := 0, period := 0, duty := 0, full := 100, on := false, lastSw := 0, keep := 0 }
      intensity := BitVec.ofNat Config.IW (2 ^ Config.IFRAC), anchor := 0, lastUpd := 0 }) ∧
  (∀ s : State, s.applyReset.chans = State.reset.chans ∧ s.applyReset.port = s.port)

/-- R200: the reset input ends any command in progress without a response, also a hung one, puts every register at its
reset value, leaves the block idle, writes nothing to `PORT` and does not touch the clocks. That it lands between steps
and leaves the host's coming commands is the model's (log 13). -/
def Obligations.ResetInputRestoresTheRegisters : Prop :=
  ∀ (s : State) (es : List EnvEvent), s.env = .reset :: es → ∃ t, step s = .next t ∧
    (∀ c, t.chan c = State.reset.chan c) ∧ (∀ k, t.table k = []) ∧ (∀ d, t.seq d = State.reset.seq d) ∧
    t.activity = .idle ∧ t.resp = none ∧ t.port = s.port ∧ t.clkUs = s.clkUs ∧ t.clkMs = s.clkMs ∧
    t.cmds = s.cmds ∧ t.env = es

/-- The invariant of the machine holds at reset. -/
def Obligations.ResetMeetsTheInvariant : Prop := State.reset.Inv

/-- R35, R61, R80, R161 (3): every step keeps the invariant: no table exceeds `CAP`, no response stands while a command
runs, the table of a running `LED.CYCLE` has an entry and a period that is not 0. -/
def Obligations.EveryStepKeepsTheInvariant : Prop :=
  ∀ s t : State, s.Inv → step s = .next t → t.Inv

/-! ## The toggler (40_pwm_toggler.md) -/

/-- R101, R102: `PWM.INIT` stores the four operands and one sample of `clk_us`, `on` 0, `keep` 0; `PORT` is not written;
any operand values are stored as given and any earlier registers replaced; its word is `op` 0x10 with its operands. -/
def Obligations.PwmInitReplacesSevenRegisters : Prop :=
  ∀ (c : Unit8) (hc : isChannel c) (pin : Pins) (period : Us) (duty full : Duty) (s : State),
    exec (.pwmInit c pin period duty full) s = .next
      { s.pastUs.answered .ok 0 0 with
        chans := s.chans.set c.toNat
          { pin := pin, period := period, duty := duty, full := full, on := false, lastSw := s.clkUs.now, keep := 0 }
          hc } ∧
    encode (.pwmInit c pin period duty full) =
      Cmd.pack 0x10 c (pin.setWidth 32) (period.setWidth 32) (duty.setWidth 32) (full.setWidth 32)

/-- R105, R106, R104, R110: `PWM.POLL` is the pseudocode of R105 on the channel, `T` one sample of `clk_us`, the port
acted on as R63 says, the response `OK`, and nothing else; its word is `op` 0x11 with no operand. -/
def Obligations.PwmPollFollowsTheAlgorithm : Prop :=
  ∀ (c : Unit8) (hc : isChannel c) (s : State),
    exec (.pwmPoll c) s = .next
      { s.pastUs.answered .ok 0 0 with
        chans := s.chans.set c.toNat (pollRule (s.chan ⟨c.toNat, hc⟩) s.clkUs.now (Config.anyTW s.draws)).1 hc
        port := portRule (pollRule (s.chan ⟨c.toNat, hc⟩) s.clkUs.now (Config.anyTW s.draws)).2 s.port
        drive := (pollRule (s.chan ⟨c.toNat, hc⟩) s.clkUs.now (Config.anyTW s.draws)).2 } ∧
    encode (.pwmPoll c) = Cmd.pack 0x11 c 0 0 0 0

/-- R104, R117: a poll passes the time test exactly when the wrapped difference has reached `keep`: below it nothing
changes, and from it on (at the deadline too) `last_sw` becomes the sample. -/
def Obligations.PollPassesExactlyFromTheDeadline : Prop :=
  ∀ (c : Unit8) (hc : isChannel c) (s : State),
    (((s.clkUs.now - (s.chan ⟨c.toNat, hc⟩).lastSw).toNat < (s.chan ⟨c.toNat, hc⟩).keep.toNat →
      ∃ t, exec (.pwmPoll c) s = .next t ∧ t.chans = s.chans ∧ t.port = s.port ∧ t.drive = .none)) ∧
    ((s.chan ⟨c.toNat, hc⟩).keep.toNat ≤ (s.clkUs.now - (s.chan ⟨c.toNat, hc⟩).lastSw).toNat →
      ∃ t, exec (.pwmPoll c) s = .next t ∧ (t.chan ⟨c.toNat, hc⟩).lastSw = s.clkUs.now)

/-- R103 (the spec's own inference from R101 and R104): the first `PWM.POLL` after `PWM.INIT` passes the time test
whatever the clock reads. -/
def Obligations.FirstPollAfterInitPasses : Prop :=
  ∀ (c : Unit8) (hc : isChannel c) (pin : Pins) (period : Us) (duty full : Duty) (s : State) (T : ClockIn Config.TW),
    ∃ t, exec (.pwmInit c pin period duty full) s = .next t ∧
      ∃ u, exec (.pwmPoll c) { t with clkUs := T } = .next u ∧
        (u.chan ⟨c.toNat, hc⟩).lastSw = T.now ∧
        (u.chan ⟨c.toNat, hc⟩).keep =
          (if duty = 0 then period
           else holdRule (t.chan ⟨c.toNat, hc⟩) duty.toNat (Config.anyTW t.draws))

/-- R110: where a passing poll makes a transition with `duty > full` (every transition with `full = 0` among them), the
flag and the port are written, `last_sw` is the sample, the response is `OK`, and `keep` is a free value: the statement
holds for every value of `Config.anyTW` (log 8). With `full = 0` and `duty = 0` no hold is computed: the channel stays
as it is, ON or OFF, and the period is armed. -/
def Obligations.MalformedDutyArmsAFreeHold : Prop :=
  ∀ (c : Unit8) (hc : isChannel c) (s : State),
    (s.chan ⟨c.toNat, hc⟩).keep.toNat ≤ (s.clkUs.now - (s.chan ⟨c.toNat, hc⟩).lastSw).toNat →
    (s.chan ⟨c.toNat, hc⟩).full.toNat < (s.chan ⟨c.toNat, hc⟩).duty.toNat ∨ (s.chan ⟨c.toNat, hc⟩).full = 0 →
    (((s.chan ⟨c.toNat, hc⟩).on = true → (s.chan ⟨c.toNat, hc⟩).duty ≠ (s.chan ⟨c.toNat, hc⟩).full →
      ∃ t, exec (.pwmPoll c) s = .next t ∧
        t.chan ⟨c.toNat, hc⟩ = { s.chan ⟨c.toNat, hc⟩ with
          on := false, keep := Config.anyTW s.draws, lastSw := s.clkUs.now } ∧
        t.port = s.port &&& ~~~(s.chan ⟨c.toNat, hc⟩).pin ∧ t.resp = some { status := .ok, res0 := 0, res1 := 0 }) ∧
     ((s.chan ⟨c.toNat, hc⟩).on = false → (s.chan ⟨c.toNat, hc⟩).duty ≠ 0 →
      ∃ t, exec (.pwmPoll c) s = .next t ∧
        t.chan ⟨c.toNat, hc⟩ = { s.chan ⟨c.toNat, hc⟩ with
          on := true, keep := Config.anyTW s.draws, lastSw := s.clkUs.now } ∧
        t.port = s.port ||| (s.chan ⟨c.toNat, hc⟩).pin ∧ t.resp = some { status := .ok, res0 := 0, res1 := 0 }) ∧
     ((s.chan ⟨c.toNat, hc⟩).full = 0 → (s.chan ⟨c.toNat, hc⟩).duty = 0 →
      ∃ t, exec (.pwmPoll c) s = .next t ∧
        t.chan ⟨c.toNat, hc⟩ = { s.chan ⟨c.toNat, hc⟩ with
          keep := (s.chan ⟨c.toNat, hc⟩).period, lastSw := s.clkUs.now } ∧
        t.port = s.port ∧ t.resp = some { status := .ok, res0 := 0, res1 := 0 }))

/-- R107, R108: `PWM.SETDUTY` stores the duty and `PWM.SETPERIOD` the period, any value, and each does nothing else: no
clock is sampled, no port bit written, `on`, `last_sw` and `keep` stay; their words are `op` 0x12 and 0x13 with slot A. -/
def Obligations.WriteCommandsWriteOneRegister : Prop :=
  ∀ (c : Unit8) (hc : isChannel c) (s : State),
    (∀ duty : Duty,
      exec (.pwmSetDuty c duty) s = .next
        { s.answered .ok 0 0 with chans := s.chans.set c.toNat { s.chan ⟨c.toNat, hc⟩ with duty := duty } hc } ∧
      encode (.pwmSetDuty c duty) = Cmd.pack 0x12 c (duty.setWidth 32) 0 0 0) ∧
    (∀ period : Us,
      exec (.pwmSetPeriod c period) s = .next
        { s.answered .ok 0 0 with chans := s.chans.set c.toNat { s.chan ⟨c.toNat, hc⟩ with period := period } hc } ∧
      encode (.pwmSetPeriod c period) = Cmd.pack 0x13 c (period.setWidth 32) 0 0 0)

/-- R113 (the spec's own inference from R106): the two holds of a channel sum to the period, or to one less, by
whether `full` divides `period * duty`. -/
def Obligations.HoldsSumToThePeriod : Prop :=
  ∀ k : Chan, 0 < k.duty.toNat → k.duty.toNat < k.full.toNat →
    k.holdOn.toNat + k.holdOff.toNat =
      if k.full.toNat ∣ k.period.toNat * k.duty.toNat then k.period.toNat else k.period.toNat - 1

/-- R114 (the spec's own inference from R101 and R105): a poll of a channel with `duty = 0` performs no `PortSet`, and
a step never turns a channel ON that is OFF with `duty = 0`: so as long as the duty is 0 the channel stays OFF,
whatever else the host does. -/
def Obligations.DutyZeroNeverTurnsOn : Prop :=
  (∀ (c : Unit8) (hc : isChannel c) (s t : State), (s.chan ⟨c.toNat, hc⟩).duty = 0 →
    exec (.pwmPoll c) s = .next t → ∀ m, t.drive ≠ .set m) ∧
  (∀ (c : Fin Config.NCH) (s t : State), (s.chan c).on = false → (s.chan c).duty = 0 → step s = .next t →
    (t.chan c).on = false)

/-- R115 (the spec's own inference from R105): a poll of a channel with `duty = full` performs no `PortClear`, and in
a state in which such a channel is ON every command but a `PWM.INIT` of it leaves it ON. -/
def Obligations.DutyFullNeverTurnsOff : Prop :=
  (∀ (c : Unit8) (hc : isChannel c) (s t : State), (s.chan ⟨c.toNat, hc⟩).duty = (s.chan ⟨c.toNat, hc⟩).full →
    exec (.pwmPoll c) s = .next t → ∀ m, t.drive ≠ .clear m) ∧
  (∀ (c : Fin Config.NCH) (i : Instr) (s t : State), (s.chan c).on = true → (s.chan c).duty = (s.chan c).full →
    (∀ u pin period duty full, i = .pwmInit u pin period duty full → u.toNat ≠ c.val) → exec i s = .next t →
    (t.chan c).on = true)

/-- R63: a poll changes only the port bits of the polled channel's mask: all of them set, all of them cleared, or none
touched; for `PWM.POLL` and, with the embedded channel's mask, for `LED.POLL`. -/
def Obligations.PollsTouchOnlyTheirPins : Prop :=
  (∀ (c : Unit8) (hc : isChannel c) (s t : State), exec (.pwmPoll c) s = .next t →
    t.port = s.port ∨ t.port = s.port ||| (s.chan ⟨c.toNat, hc⟩).pin ∨
      t.port = s.port &&& ~~~(s.chan ⟨c.toNat, hc⟩).pin) ∧
  (∀ (d tbl : Unit8) (hd : isSequencer d) (s t : State), exec (.ledPoll d tbl) s = .next t →
    t.port = s.port ∨ t.port = s.port ||| (s.seq ⟨d.toNat, hd⟩).ch.pin ∨
      t.port = s.port &&& ~~~(s.seq ⟨d.toNat, hd⟩).ch.pin)

/-- R65, with R63, R114 and R115: under the premise that no agent but the channel writes the `PORT` bits of its mask
(`State.soleOwner`), a step leaves those bits as they are, or the channel's own poll sets all of them, or clears all of
them; while a standalone channel has `duty = 0` no step sets one, and while it has `duty = full` no step clears one. The
spec marks R114 and R115 as its own inference. -/
def Obligations.OwnedPinsFollowTheirChannel : Prop :=
  (∀ (r : ChanRef) (s t : State), s.soleOwner r → step s = .next t →
    t.port &&& (s.chanAt r).pin = s.port &&& (s.chanAt r).pin ∨
    (t.drive = .set (s.chanAt r).pin ∧ t.port &&& (s.chanAt r).pin = (s.chanAt r).pin) ∨
    (t.drive = .clear (s.chanAt r).pin ∧ t.port &&& (s.chanAt r).pin = 0)) ∧
  (∀ (c : Fin Config.NCH) (s t : State), s.soleOwner (.standalone c) → step s = .next t →
    ((s.chan c).duty = 0 → t.port &&& (s.chan c).pin &&& ~~~s.port = 0) ∧
    ((s.chan c).duty = (s.chan c).full → s.port &&& (s.chan c).pin &&& ~~~t.port = 0))

/-- The frame of the toggler commands (R22, R42, R100): no other channel, no table, no sequencer, not `clk_ms`,
nothing of the host's; `pin` and `full` only by `PWM.INIT`; only `PWM.POLL` touches the port; only `PWM.INIT` and
`PWM.POLL` sample `clk_us`. -/
def Obligations.TogglerCommandsFrame : Prop :=
  ∀ (i : Instr) (s t : State), i.opcode ∈ [.pwmInit, .pwmPoll, .pwmSetDuty, .pwmSetPeriod] → exec i s = .next t →
    (∀ c : Fin Config.NCH, c.val ≠ i.unit.toNat → t.chan c = s.chan c) ∧ t.tables = s.tables ∧ t.seqs = s.seqs ∧
    t.clkMs = s.clkMs ∧ s.sameInputs t ∧
    (i.opcode ≠ .pwmInit → ∀ c, (t.chan c).pin = (s.chan c).pin ∧ (t.chan c).full = (s.chan c).full) ∧
    (i.opcode ≠ .pwmPoll → t.port = s.port ∧ t.drive = s.drive) ∧
    (i.opcode ∈ [.pwmSetDuty, .pwmSetPeriod] → t.clkUs = s.clkUs ∧ t.draws = s.draws)

/-! ## The tables (41_table.md) -/

/-- R121: `TBL.INIT` leaves the table with no entry and does nothing else; its word is `op` 0x20. -/
def Obligations.TblInitEmptiesTheTable : Prop :=
  ∀ (k : Unit8) (hk : isTable k) (s : State),
    exec (.tblInit k) s = .next { s.answered .ok 0 0 with tables := s.tables.set k.toNat [] hk } ∧
    encode (.tblInit k) = Cmd.pack 0x20 k 0 0 0 0

/-- R123, R124: `TBL.PUSH` appends the pair at `size[t]`, whatever the `x` before it, or raises `CAPACITY_EXCEEDED` with
the table unchanged when `size[t] + 1 > CAP`; its word is `op` 0x21 with slots A and B. -/
def Obligations.TblPushAppendsOrFaults : Prop :=
  ∀ (k : Unit8) (hk : isTable k) (x : XVal) (y : Duty) (s : State),
    ((s.table ⟨k.toNat, hk⟩).length + 1 ≤ 16 → exec (.tblPush k x y) s = .next
      { s.answered .ok 0 0 with
        tables := s.tables.set k.toNat (s.table ⟨k.toNat, hk⟩ ++ [{ x := x, y := y }]) hk }) ∧
    (16 < (s.table ⟨k.toNat, hk⟩).length + 1 →
      exec (.tblPush k x y) s = .next (s.answered .capacityExceeded 0 0)) ∧
    encode (.tblPush k x y) = Cmd.pack 0x21 k (x.setWidth 32) (y.setWidth 32) 0 0

/-- R126, R127, R128: `TBL.MIRROR` on no entry raises `EMPTY_TABLE`, and on `n` entries with `2n - 1 > CAP` raises
`CAPACITY_EXCEEDED`, the table unchanged; on `n` entries that fit it keeps them, and its entry `n + j` is old entry `n
- 2 - j` with `x' = (P +XW P) -XW x`, `P` the last `x`; the new size is `2n - 1`; nothing else is written; its word is
`op` 0x22 with no operand. -/
def Obligations.TblMirrorAppendsTheReflection : Prop :=
  ∀ (k : Unit8) (hk : isTable k) (s : State),
    (s.table ⟨k.toNat, hk⟩ = [] → exec (.tblMirror k) s = .next (s.answered .emptyTable 0 0)) ∧
    (16 < 2 * (s.table ⟨k.toNat, hk⟩).length - 1 →
      exec (.tblMirror k) s = .next (s.answered .capacityExceeded 0 0)) ∧
    (∀ last : Breakpoint,
      (s.table ⟨k.toNat, hk⟩).getLast? = some last → 2 * (s.table ⟨k.toNat, hk⟩).length - 1 ≤ 16 →
      ∃ es : Table, exec (.tblMirror k) s = .next { s.answered .ok 0 0 with tables := s.tables.set k.toNat es hk } ∧
        es.length = 2 * (s.table ⟨k.toNat, hk⟩).length - 1 ∧
        (∀ i < (s.table ⟨k.toNat, hk⟩).length, sameEntry es i (s.table ⟨k.toNat, hk⟩) i id) ∧
        (∀ j < (s.table ⟨k.toNat, hk⟩).length - 1,
          sameEntry es ((s.table ⟨k.toNat, hk⟩).length + j) (s.table ⟨k.toNat, hk⟩)
            ((s.table ⟨k.toNat, hk⟩).length - 2 - j) (fun x => last.x + last.x - x))) ∧
    encode (.tblMirror k) = Cmd.pack 0x22 k 0 0 0 0

/-- R130, R131, R132: `TBL.NPLICATE` on no entry raises `EMPTY_TABLE`, and on `m` entries with `m * (n + 1) > CAP` over
the integers raises `CAPACITY_EXCEEDED`, the table unchanged; on `m` entries that fit it makes `m * (n + 1)`, entry
`j * m + i` being old entry `i` shifted by `j * P` modulo `2^XW`, for `j = 0 .. n`; nothing else is written; its word is
`op` 0x23 with slot A. -/
def Obligations.TblNplicateRepeatsTheSequence : Prop :=
  ∀ (k : Unit8) (hk : isTable k) (n : Repeat) (s : State),
    (s.table ⟨k.toNat, hk⟩ = [] → exec (.tblNplicate k n) s = .next (s.answered .emptyTable 0 0)) ∧
    (16 < (s.table ⟨k.toNat, hk⟩).length * (n.toNat + 1) →
      exec (.tblNplicate k n) s = .next (s.answered .capacityExceeded 0 0)) ∧
    (∀ last : Breakpoint,
      (s.table ⟨k.toNat, hk⟩).getLast? = some last → (s.table ⟨k.toNat, hk⟩).length * (n.toNat + 1) ≤ 16 →
      ∃ es : Table,
        exec (.tblNplicate k n) s = .next { s.answered .ok 0 0 with tables := s.tables.set k.toNat es hk } ∧
        es.length = (s.table ⟨k.toNat, hk⟩).length * (n.toNat + 1) ∧
        (∀ j ≤ n.toNat, ∀ i < (s.table ⟨k.toNat, hk⟩).length,
          sameEntry es (j * (s.table ⟨k.toNat, hk⟩).length + i) (s.table ⟨k.toNat, hk⟩) i
            (fun x => x + BitVec.ofNat Config.XW (j * last.x.toNat)))) ∧
    encode (.tblNplicate k n) = Cmd.pack 0x23 k (n.setWidth 32) 0 0 0

/-- R129, R133: of a sorted table whose `2 * P` fits, the mirror is sorted, its last `x` is `2 * P - first x`, and every
old entry but the last has its reflection with the same `y`; of a sorted table whose `(n + 1) * P` fits, the repetition
is sorted. -/
def Obligations.BuildersKeepTheOrder : Prop :=
  ∀ (es : Table) (first last : Breakpoint), es.head? = some first → es.getLast? = some last → es.sorted →
    (2 * last.x.toNat < 2 ^ Config.XW →
      (es.mirrored last.x).sorted ∧
      (∃ e, (es.mirrored last.x).getLast? = some e ∧ e.x.toNat = 2 * last.x.toNat - first.x.toNat) ∧
      (∀ e ∈ es.dropLast, ∃ e' ∈ es.mirrored last.x, e'.x.toNat = 2 * last.x.toNat - e.x.toNat ∧ e'.y = e.y)) ∧
    (∀ n : Nat, (n + 1) * last.x.toNat < 2 ^ Config.XW → (es.nplicated last.x n).sorted)

/-- R181, R127, R131, R123: a command that would make `size[t]` exceed `CAP` raises `CAPACITY_EXCEEDED`. R182, R128,
R154, R160: the commands that need an entry of a table that has none raise `EMPTY_TABLE`; `LED.POLL` only on a throttle
tick, after its sample of `clk_ms`, without the embedded poll, and when it is no tick an empty table raises nothing;
`LED.CYCLE` before anything is sampled. The response carries zeros, and nothing of the block is written. -/
def Obligations.CheckedFailuresRaiseTheirFaults : Prop :=
  ∀ (k : Unit8) (hk : isTable k) (s : State),
    (∀ x y, Config.CAP < (s.table ⟨k.toNat, hk⟩).length + 1 →
      exec (.tblPush k x y) s = .next (s.answered .capacityExceeded 0 0)) ∧
    (Config.CAP < 2 * (s.table ⟨k.toNat, hk⟩).length - 1 →
      exec (.tblMirror k) s = .next (s.answered .capacityExceeded 0 0)) ∧
    (∀ n : Repeat, Config.CAP < (s.table ⟨k.toNat, hk⟩).length * (n.toNat + 1) →
      exec (.tblNplicate k n) s = .next (s.answered .capacityExceeded 0 0)) ∧
    (s.table ⟨k.toNat, hk⟩ = [] →
      (∀ x, exec (.tblInterp k x) s = .next (s.answered .emptyTable 0 0)) ∧
      exec (.tblMirror k) s = .next (s.answered .emptyTable 0 0) ∧
      (∀ n, exec (.tblNplicate k n) s = .next (s.answered .emptyTable 0 0)) ∧
      exec (.tblPop k) s = .next (s.answered .emptyTable 0 0) ∧
      (∀ (d : Unit8) (hd : isSequencer d) (N : Ms), exec (.ledCycle d k N) s = .next (s.answered .emptyTable 0 0) ∧
        (50 ≤ (s.clkMs.now - (s.seq ⟨d.toNat, hd⟩).lastUpd).toNat →
          exec (.ledPoll d k) s = .next (s.pastMs.answered .emptyTable 0 0)) ∧
        ((s.clkMs.now - (s.seq ⟨d.toNat, hd⟩).lastUpd).toNat < 50 →
          ∃ t, exec (.ledPoll d k) s = .next t ∧ t.resp = some { status := .ok, res0 := 0, res1 := 0 })))

/-- R134, R135, R136, R140: a query between `l` and `r`, where `r` is the first entry from index 1 on whose `x` is above
it, answers `y0 + ((q - x0) * (y1 - y0)) quot (x1 - x0)`, and nothing else changes; the entries need not be sorted. Its
word is `op` 0x24 with slot A. -/
def Obligations.InterpBetweenTwoBreakpoints : Prop :=
  ∀ (k : Unit8) (hk : isTable k) (q : XVal) (s : State),
    (∀ (pre post : Table) (l r last : Breakpoint),
      s.table ⟨k.toNat, hk⟩ = pre ++ l :: r :: post → (s.table ⟨k.toNat, hk⟩).getLast? = some last →
      q.toNat < last.x.toNat → (∀ e ∈ (pre ++ [l]).tail, e.x.toNat ≤ q.toNat) → l.x.toNat ≤ q.toNat →
      q.toNat < r.x.toNat →
      exec (.tblInterp k q) s = .next (s.answered .ok
        (BitVec.ofInt 32 ((l.y.toNat : Int) +
          Int.tdiv (((q.toNat : Int) - l.x.toNat) * ((r.y.toNat : Int) - l.y.toNat)) ((r.x.toNat : Int) - l.x.toNat)))
        0)) ∧
    encode (.tblInterp k q) = Cmd.pack 0x24 k (q.setWidth 32) 0 0 0

/-- R136: the interpolated value lies between the two `y` values, so it fits `YW` bits. -/
def Obligations.InterpolationStaysBetween : Prop :=
  ∀ (l r : Breakpoint) (q : XVal), l.x.toNat ≤ q.toNat → q.toNat < r.x.toNat →
    (min l.y.toNat r.y.toNat : Int) ≤ interpolate l r q ∧ interpolate l r q ≤ (max l.y.toNat r.y.toNat : Int)

/-- R137 (the spec's own inference from R135): in a sorted table the query at an entry's `x` that the next entry's `x`
exceeds answers that entry's `y` exactly; with several neighbours of that `x` it is the last of them. -/
def Obligations.InterpAtANodeIsExact : Prop :=
  ∀ (k : Unit8) (hk : isTable k) (s : State) (pre post : Table) (e r : Breakpoint),
    s.table ⟨k.toNat, hk⟩ = pre ++ e :: r :: post → (s.table ⟨k.toNat, hk⟩).sorted → e.x.toNat < r.x.toNat →
    exec (.tblInterp k e.x) s = .next (s.answered .ok (e.y.setWidth 32) 0)

/-- R138: a query at or beyond the last `x` answers 0, whatever the last `y` is, sorted or not, one entry or more. -/
def Obligations.InterpAtOrBeyondTheEndIsZero : Prop :=
  ∀ (k : Unit8) (hk : isTable k) (q : XVal) (s : State) (last : Breakpoint),
    (s.table ⟨k.toNat, hk⟩).getLast? = some last → last.x.toNat ≤ q.toNat →
    exec (.tblInterp k q) s = .next (s.answered .ok 0 0)

/-- R139: where the pair found does not bracket the query (which can only be the first pair, both ends above the query:
any later pair's left end was passed by the scan), or a one-entry table is queried below its `x`, the response is
`OK` with a free value: the statement holds for every value of `Config.anyYW` (log 9). -/
def Obligations.InterpOutsideTheContractIsFree : Prop :=
  ∀ (k : Unit8) (hk : isTable k) (q : XVal) (s : State),
    (∀ (post : Table) (l r last : Breakpoint),
      s.table ⟨k.toNat, hk⟩ = l :: r :: post → (s.table ⟨k.toNat, hk⟩).getLast? = some last →
      q.toNat < last.x.toNat → q.toNat < r.x.toNat → q.toNat < l.x.toNat →
      exec (.tblInterp k q) s = .next
        { s.answered .ok ((Config.anyYW s.draws).setWidth 32) 0 with draws := s.draws + 1 }) ∧
    (∀ e : Breakpoint, s.table ⟨k.toNat, hk⟩ = [e] → q.toNat < e.x.toNat →
      exec (.tblInterp k q) s = .next
        { s.answered .ok ((Config.anyYW s.draws).setWidth 32) 0 with draws := s.draws + 1 })

/-- R141, R128: `TBL.POP` removes the last entry and answers its `x` and `y`, nothing else is written; on no entry it
raises `EMPTY_TABLE`; its word is `op` 0x25 with no operand. -/
def Obligations.TblPopRemovesTheLastEntry : Prop :=
  ∀ (k : Unit8) (hk : isTable k) (s : State),
    (∀ (es : Table) (e : Breakpoint), s.table ⟨k.toNat, hk⟩ = es ++ [e] →
      exec (.tblPop k) s = .next
        { s.answered .ok (e.x.setWidth 32) (e.y.setWidth 32) with tables := s.tables.set k.toNat es hk }) ∧
    (s.table ⟨k.toNat, hk⟩ = [] → exec (.tblPop k) s = .next (s.answered .emptyTable 0 0)) ∧
    encode (.tblPop k) = Cmd.pack 0x25 k 0 0 0 0

/-- The frame of the table commands (R120): no clock, no port, no channel and so no flag, no sequencer, no other table,
nothing of the host's; `TBL.INTERP` writes no table at all. -/
def Obligations.TableCommandsFrame : Prop :=
  ∀ (i : Instr) (s t : State),
    i.opcode ∈ [.tblInit, .tblPush, .tblMirror, .tblNplicate, .tblInterp, .tblPop] → exec i s = .next t →
    t.chans = s.chans ∧ t.seqs = s.seqs ∧ t.port = s.port ∧ t.drive = s.drive ∧ s.sameClocks t ∧ s.sameInputs t ∧
    (∀ k : Fin Config.NTBL, k.val ≠ i.unit.toNat → t.table k = s.table k) ∧
    (i.opcode = .tblInterp → t.tables = s.tables)

/-- R36, R37, R33: the only ways to shrink a table are `TBL.POP` and `TBL.INIT` of it: under every other command the old
entries stay, in order, at the front. -/
def Obligations.OnlyPopAndInitShrinkATable : Prop :=
  ∀ (i : Instr) (s t : State) (k : Fin Config.NTBL), exec i s = .next t →
    (∀ u : Unit8, i = .tblPop u ∨ i = .tblInit u → u.toNat ≠ k.val) → s.table k <+: t.table k

/-! ## The sequencers (42_led_sequencer.md) -/

/-- R151: `LED.INIT` builds the embedded channel with the fixed period, duty 0, full 100 and a sample of `clk_us`,
stores the intensity, and sets `anchor` and `last_upd` to one sample of `clk_ms` taken first; `PORT` is not written;
its word is `op` 0x30 with slots A and B. It holds for every value of `Config.LED_CARRIER_PERIOD` (log 3). -/
def Obligations.LedInitBuildsTheSequencer : Prop :=
  ∀ (d : Unit8) (hd : isSequencer d) (pin : Pins) (g : Gain) (s : State),
    exec (.ledInit d pin g) s = .next
      { s.pastMs.pastUs.answered .ok 0 0 with
        seqs := s.seqs.set d.toNat
          { ch := { pin := pin, period := Config.LED_CARRIER_PERIOD, duty := 0, full := 100, on := false,
                    lastSw := s.clkUs.now, keep := 0 }
            intensity := g, anchor := s.clkMs.now, lastUpd := s.clkMs.now } hd } ∧
    encode (.ledInit d pin g) = Cmd.pack 0x30 d (pin.setWidth 32) (g.setWidth 32) 0 0

/-- R158, R152, R153: a poll that is not a throttle tick samples `clk_ms` once and polls the embedded channel with the
duty it has; the sequencer's own registers stay, the table is not looked at, the response is `OK`. Its word (R153) is `op` 0x31
with the sequencer in `unit` and the table in slot A. -/
def Obligations.LedPollBetweenTicks : Prop :=
  ∀ (d tbl : Unit8) (hd : isSequencer d) (_ : isTable tbl) (s : State),
    ((s.clkMs.now - (s.seq ⟨d.toNat, hd⟩).lastUpd).toNat < 50 →
      exec (.ledPoll d tbl) s = .next
        ((s.pastMs.embeddedPollRule ⟨d.toNat, hd⟩ (s.seq ⟨d.toNat, hd⟩)).answered .ok 0 0)) ∧
    encode (.ledPoll d tbl) = Cmd.pack 0x31 d (tbl.setWidth 32) 0 0 0

/-- R153, R152, R155, R156: on a throttle tick with a table of period `P > 0` the anchor moves by whole periods to
within one of `now`, the phase is the elapsed count modulo `P`, the duty is the scaled lookup at the phase, `last_upd`
is `now`, then the embedded channel is polled with the new duty; the response is `OK`. -/
def Obligations.LedPollOnATick : Prop :=
  ∀ (d tbl : Unit8) (hd : isSequencer d) (ht : isTable tbl) (s : State) (last : Breakpoint),
    50 ≤ (s.clkMs.now - (s.seq ⟨d.toNat, hd⟩).lastUpd).toNat →
    (s.table ⟨tbl.toNat, ht⟩).getLast? = some last → last.x ≠ 0 →
    exec (.ledPoll d tbl) s = .next
      ((s.pastMs.embeddedPollRule ⟨d.toNat, hd⟩
        (tickRule (s.seq ⟨d.toNat, hd⟩) (s.table ⟨tbl.toNat, ht⟩) last.x s.clkMs.now
          (Config.anyYW s.draws))).answered .ok 0 0)

/-- R155 (the spec's own inference from R153): for `1 <= P` the catch-up loop of R153 ends after `(now -MW anchor) div
P` passes (more fuel changes nothing) with the anchor the machine computes, `now -MW phase`, and the phase is `(now
-MW anchor) mod P`, in `[0, P)`. -/
def Obligations.CatchUpLoopEndsWithinOnePeriod : Prop :=
  ∀ (q : Seq) (P : XVal) (now : Ms) (fuel : Nat), P ≠ 0 → (now - q.anchor).toNat / P.toNat ≤ fuel →
    catchUp P now fuel q.anchor = q.caughtUp P now ∧
    (now - q.caughtUp P now).toNat = (now - q.anchor).toNat % P.toNat ∧
    (now - q.caughtUp P now).toNat < P.toNat

/-- R157 (the spec's own inference from R153, and its decision D24): on a throttle tick with a non-empty table whose
last `x` is 0 the block hangs: no response, nothing written. -/
def Obligations.LedPollOnAPeriodOfZeroHangs : Prop :=
  ∀ (d tbl : Unit8) (hd : isSequencer d) (ht : isTable tbl) (s : State) (last : Breakpoint),
    50 ≤ (s.clkMs.now - (s.seq ⟨d.toNat, hd⟩).lastUpd).toNat →
    (s.table ⟨tbl.toNat, ht⟩).getLast? = some last → last.x = 0 →
    exec (.ledPoll d tbl) s = .next { s.pastMs with resp := none, activity := .hung }

/-- R188 (the spec's own inference from R157), R200: from a hung state every step but the reset input leaves the block
hung: no response, no command taken, no register, table or clock touched. -/
def Obligations.OnlyResetEndsAHang : Prop :=
  ∀ s t : State, s.activity = .hung → s.resp = none → step s = .next t →
    (∃ es, s.env = .reset :: es ∧ t.activity = .idle) ∨
    (t.activity = .hung ∧ t.resp = none ∧ t.cmds = s.cmds ∧ t.chans = s.chans ∧ t.tables = s.tables ∧
      t.seqs = s.seqs ∧ s.sameClocks t ∧ t.drive = .none)

/-- R160, R161 (2): `LED.CYCLE` on a table with an entry samples `clk_ms` for `t0`, and once for its first loop test;
where that is at or past `target = trunc(N * period)`, as it always is when `N = 0` or the period is 0, it ends with
`OK` and no poll is made. The two samples are the two readings listed in the state. Its word is `op` 0x32 with the sequencer in
`unit`, the table in slot A and `N` in slot B. -/
def Obligations.LedCycleEndsAtItsTarget : Prop :=
  ∀ (d tbl : Unit8) (_ : isSequencer d) (ht : isTable tbl) (N : Ms) (s : State),
    (∀ last : Breakpoint, (s.table ⟨tbl.toNat, ht⟩).getLast? = some last →
      (N.toNat * last.x.toNat) % 2 ^ Config.MW ≤ (s.pastMs.clkMs.now - s.clkMs.now).toNat →
      exec (.ledCycle d tbl N) s = .next (s.pastMs.pastMs.answered .ok 0 0)) ∧
    encode (.ledCycle d tbl N) = Cmd.pack 0x32 d (tbl.setWidth 32) (N.setWidth 32) 0 0

/-- R160: where the first loop test does not reach the target, `LED.CYCLE` makes the poll that `LED.POLL` would make
at the next sample, and stays in its loop with `t0` and `target`, without a response. That the loop goes on in later
steps is the model's (log 14). -/
def Obligations.LedCycleGoesOnBeforeItsTarget : Prop :=
  ∀ (d tbl : Unit8) (hd : isSequencer d) (ht : isTable tbl) (N : Ms) (s : State) (last : Breakpoint),
    (s.table ⟨tbl.toNat, ht⟩).getLast? = some last →
    (s.pastMs.clkMs.now - s.clkMs.now).toNat < (N.toNat * last.x.toNat) % 2 ^ Config.MW →
    ∃ u, exec (.ledPoll d tbl) s.pastMs.pastMs = .next u ∧
      exec (.ledCycle d tbl N) s = .next
        { u with
          resp := none
          activity := .cycling
            { d := ⟨d.toNat, hd⟩, t := ⟨tbl.toNat, ht⟩, t0 := s.clkMs.now
              target := BitVec.ofNat Config.MW (N.toNat * last.x.toNat) } }

/-- R160, R161 (4): in a step inside `LED.CYCLE` the block leaves the loop exactly when the loop test's sample is at least
`target` counts after `t0`; then it responds `OK` and nothing else changes. Where it goes on, the pass is the poll that
`LED.POLL` of the same sequencer and table would make after that sample (`LedPollBody`), with no response and the loop's
values kept; it takes no command meanwhile. One pass per step is the model's (log 14). -/
def Obligations.CycleLeavesTheLoopAtTheTarget : Prop :=
  ∀ (s : State) (j : CycleJob), s.Inv → s.undisturbed → s.activity = .cycling j →
    (j.target.toNat ≤ (s.clkMs.now - j.t0).toNat → step s = .next (s.turn.pastMs.answered .ok 0 0)) ∧
    ((s.clkMs.now - j.t0).toNat < j.target.toNat →
      ∃ u, exec (.ledPoll (BitVec.ofNat 8 j.d) (BitVec.ofNat 8 j.t)) s.turn.pastMs = .next u ∧
        u.resp = some { status := .ok, res0 := 0, res1 := 0 } ∧
        step s = .next { u with resp := none, activity := .cycling j } ∧
        u.cmds = s.cmds ∧ u.tables = s.tables ∧ u.chans = s.chans)

/-- R161 (3) (the spec's own inference from R160): from a state that meets the invariant a running `LED.CYCLE` neither
hangs nor faults: a step goes on with it, or ends it with `OK`, or the reset input ends it. -/
def Obligations.CycleNeverHangsNorFaults : Prop :=
  ∀ (s t : State) (j : CycleJob), s.Inv → s.activity = .cycling j → step s = .next t →
    (t.activity = .cycling j ∧ t.resp = none) ∨
    (t.activity = .idle ∧ (t.resp = some { status := .ok, res0 := 0, res1 := 0 } ∨ ∃ es, s.env = .reset :: es))

/-- The frame of the sequencer commands (R42, R37, R159, R39): no standalone channel, no table, no other sequencer,
nothing of the host's; `LED.POLL` and `LED.CYCLE` leave the intensity and the embedded `pin`, `period` and `full`;
`LED.INIT` does not touch the port. -/
def Obligations.SequencerCommandsFrame : Prop :=
  ∀ (i : Instr) (s t : State), i.opcode ∈ [.ledInit, .ledPoll, .ledCycle] → exec i s = .next t →
    t.chans = s.chans ∧ t.tables = s.tables ∧ s.sameInputs t ∧
    (∀ d : Fin Config.NLED, d.val ≠ i.unit.toNat → t.seq d = s.seq d) ∧
    (i.opcode ≠ .ledInit → ∀ d, (t.seq d).intensity = (s.seq d).intensity ∧ (t.seq d).ch.pin = (s.seq d).ch.pin ∧
      (t.seq d).ch.period = (s.seq d).ch.period ∧ (t.seq d).ch.full = (s.seq d).ch.full) ∧
    (i.opcode = .ledInit → t.port = s.port ∧ t.drive = s.drive)

/-! ## The whole machine -/

/-- R184, R84: when a command raises a fault, no register of the block, no table entry and no port bit is written, the
results are 0, and the block is idle. -/
def Obligations.FaultsArePrecise : Prop :=
  ∀ (i : Instr) (s t : State) (r : Response), exec i s = .next t → t.resp = some r → r.status ≠ .ok →
    s.sameBlock t ∧ r.res0 = 0 ∧ r.res1 = 0 ∧ t.activity = .idle

/-- R64: no state of the block and no decision depends on the value of `PORT`: from two states that differ in it only,
the two next states differ in it only. -/
def Obligations.ThePortIsNeverAnInput : Prop :=
  ∀ (s : State) (p : Pins), ∃ t q, step s = .next t ∧ step (s.withPort p) = .next (t.withPort q)

/-- R22, R26, R30, R37, R39, R40, R41, R159: over all commands, `pin` and `full` of a standalone channel are written by
`PWM.INIT` of it only, its `period` and `duty` also by the two write commands, its `on`, `last_sw` and `keep` by
`PWM.INIT` and `PWM.POLL` only; the intensity and the embedded `pin`, `period`, `full` of a sequencer by `LED.INIT` of it
only, and its other registers (the embedded `duty`, `on`, `last_sw`, `keep`, and `anchor`, `last_upd`) by the `LED`
commands of it only; the entries and the size of a table by the five builders of it only. A later pass of `LED.CYCLE`
writes what `LED.POLL` of its sequencer may write, and nothing else (its being a step of its own is the model's, log
14). -/
def Obligations.RegistersAreWrittenByTheirCommandsOnly : Prop :=
  (∀ (i : Instr) (s t : State), exec i s = .next t →
    (∀ c : Fin Config.NCH,
      ((t.chan c).pin ≠ (s.chan c).pin ∨ (t.chan c).full ≠ (s.chan c).full → i.opcode = .pwmInit ∧ i.unit.toNat = c.val) ∧
      ((t.chan c).period ≠ (s.chan c).period → i.opcode ∈ [.pwmInit, .pwmSetPeriod] ∧ i.unit.toNat = c.val) ∧
      ((t.chan c).duty ≠ (s.chan c).duty → i.opcode ∈ [.pwmInit, .pwmSetDuty] ∧ i.unit.toNat = c.val) ∧
      ((t.chan c).on ≠ (s.chan c).on ∨ (t.chan c).lastSw ≠ (s.chan c).lastSw ∨ (t.chan c).keep ≠ (s.chan c).keep →
        i.opcode ∈ [.pwmInit, .pwmPoll] ∧ i.unit.toNat = c.val)) ∧
    (∀ d : Fin Config.NLED,
      (¬ (s.seq d).sameConfig (t.seq d) → i.opcode = .ledInit ∧ i.unit.toNat = d.val) ∧
      (t.seq d ≠ s.seq d → i.opcode ∈ [.ledInit, .ledPoll, .ledCycle] ∧ i.unit.toNat = d.val)) ∧
    (∀ k : Fin Config.NTBL, t.table k ≠ s.table k →
      i.opcode ∈ [.tblInit, .tblPush, .tblMirror, .tblNplicate, .tblPop] ∧ i.unit.toNat = k.val)) ∧
  (∀ (s t : State) (j : CycleJob), s.activity = .cycling j → s.undisturbed → step s = .next t →
    t.chans = s.chans ∧ t.tables = s.tables ∧
    ∀ d : Fin Config.NLED, (s.seq d).sameConfig (t.seq d) ∧ (d ≠ j.d → t.seq d = s.seq d))

/-- R172, R173, R174, R170: issued into a table that exists, the constant and the breathing presets are answered `OK`
and leave the entries their rules list, for every period whose numbers fit. -/
def Obligations.PresetsBuildTheirTables : Prop :=
  ∀ (k : Unit8) (hk : isTable k) (s : State),
    (∃ is u, mkOn k = some is ∧ issue is s = .next u ∧ u.answeredOk = true ∧
      u.table ⟨k.toNat, hk⟩ = [{ x := 0, y := 100 }, { x := 1000, y := 100 }]) ∧
    (∃ is u, mkOff k = some is ∧ issue is s = .next u ∧ u.answeredOk = true ∧
      u.table ⟨k.toNat, hk⟩ = [{ x := 0, y := 0 }, { x := 1000, y := 0 }]) ∧
    (∀ P : Nat, P < 2 ^ Config.XW → ∃ is u, mkBreathe k P = some is ∧ issue is s = .next u ∧ u.answeredOk = true ∧
      (u.table ⟨k.toNat, hk⟩).map (fun e => (e.x.toNat, e.y.toNat)) =
        [(0, 0), (P / 8, 0), (P / 3, 30), (P / 2, 100), (2 * (P / 2) - P / 3, 30), (2 * (P / 2) - P / 8, 0),
          (2 * (P / 2), 0)])

/-- R175: issued into a table that exists, the blink preset with `1 <= N`, `4 * N <= CAP` and numbers that fit is
answered `OK`, leaves `4 * N` entries, ends at `(N * (on + off) + pause, 0)`, and its entry `4 * j + i` for the others
is the pulse `(0, 100), (on, 100), (on, 0), (on + off, 0)` shifted by `j * (on + off)`. -/
def Obligations.BlinkPresetBuildsItsTable : Prop :=
  ∀ (k : Unit8) (hk : isTable k) (N on off pause : Nat) (s : State), 1 ≤ N → 4 * N ≤ 16 →
    N * (on + off) + pause < 2 ^ Config.XW →
    ∃ is u, mkBlink k N on off pause = some is ∧ issue is s = .next u ∧ u.answeredOk = true ∧
      (u.table ⟨k.toNat, hk⟩).length = 4 * N ∧
      ((u.table ⟨k.toNat, hk⟩).getLast?).map (fun e => (e.x.toNat, e.y.toNat)) = some (N * (on + off) + pause, 0) ∧
      (∀ j < N, ∀ i < 4, 4 * j + i + 1 < 4 * N →
        ((u.table ⟨k.toNat, hk⟩)[4 * j + i]?).map (fun e => (e.x.toNat, e.y.toNat)) =
          ([(0, 100), (on, 100), (on, 0), (on + off, 0)][i]?).map (fun p => (p.1 + j * (on + off), p.2)))
end

