-- ==== Sys2Proof/Laws/Encoding.lean ====
section
/-! SUPPORT. Packing a command word and reading its fields back (spec/30_encoding.md R81): what the proofs about `decode`
and `encode` cite instead of unfolding the word. -/

namespace Sys2Proof

variable (op : BitVec 8) (u : Unit8) (a b c d : Slot)

@[simp] theorem slotD_pack : (Cmd.pack op u a b c d).slotD = d := by
  ext i hi
  simp only [Cmd.pack, Cmd.slotD, BitVec.getElem_extractLsb', BitVec.getLsbD_append]
  simp [hi]

@[simp] theorem slotC_pack : (Cmd.pack op u a b c d).slotC = c := by
  ext i hi
  simp only [Cmd.pack, Cmd.slotC, BitVec.getElem_extractLsb', BitVec.getLsbD_append]
  have h1 : ¬ (32 + i < 32) := by omega
  have h2 : 32 + i - 32 = i := by omega
  simp [h2, hi]

@[simp] theorem slotB_pack : (Cmd.pack op u a b c d).slotB = b := by
  ext i hi
  simp only [Cmd.pack, Cmd.slotB, BitVec.getElem_extractLsb', BitVec.getLsbD_append]
  have h1 : ¬ (64 + i < 32) := by omega
  have h2 : ¬ (64 + i - 32 < 32) := by omega
  have h3 : 64 + i - 32 - 32 = i := by omega
  simp [h1, h2, h3, hi]

@[simp] theorem slotA_pack : (Cmd.pack op u a b c d).slotA = a := by
  ext i hi
  simp only [Cmd.pack, Cmd.slotA, BitVec.getElem_extractLsb', BitVec.getLsbD_append]
  have h1 : ¬ (96 + i < 32) := by omega
  have h2 : ¬ (96 + i - 32 < 32) := by omega
  have h3 : ¬ (96 + i - 32 - 32 < 32) := by omega
  have h4 : 96 + i - 32 - 32 - 32 = i := by omega
  simp [h1, h2, h3, h4, hi]

@[simp] theorem unit_pack : (Cmd.pack op u a b c d).unit = u := by
  ext i hi
  simp only [Cmd.pack, Cmd.unit, BitVec.getElem_extractLsb', BitVec.getLsbD_append]
  have h1 : ¬ (128 + i < 32) := by omega
  have h2 : ¬ (128 + i - 32 < 32) := by omega
  have h3 : ¬ (128 + i - 32 - 32 < 32) := by omega
  have h4 : ¬ (128 + i - 32 - 32 - 32 < 32) := by omega
  have h5 : 128 + i - 32 - 32 - 32 - 32 = i := by omega
  simp [h1, h2, h3, h4, h5, hi]

@[simp] theorem op_pack : (Cmd.pack op u a b c d).op = op := by
  ext i hi
  simp only [Cmd.pack, Cmd.op, BitVec.getElem_extractLsb', BitVec.getLsbD_append]
  have h1 : ¬ (136 + i < 32) := by omega
  have h2 : ¬ (136 + i - 32 < 32) := by omega
  have h3 : ¬ (136 + i - 32 - 32 < 32) := by omega
  have h4 : ¬ (136 + i - 32 - 32 - 32 < 32) := by omega
  have h5 : ¬ (136 + i - 32 - 32 - 32 - 32 < 8) := by omega
  have h6 : 136 + i - 32 - 32 - 32 - 32 - 8 = i := by omega
  simp [h1, h2, h3, h4, h5, h6, hi]

/-- A word is the packing of its own fields. -/
theorem pack_fields (w : Cmd) : Cmd.pack w.op w.unit w.slotA w.slotB w.slotC w.slotD = w := by
  apply BitVec.eq_of_getLsbD_eq
  intro i hi
  simp only [Cmd.pack, Cmd.op, Cmd.unit, Cmd.slotA, Cmd.slotB, Cmd.slotC, Cmd.slotD, BitVec.getLsbD_append,
    BitVec.getLsbD_extractLsb']
  by_cases h1 : i < 32
  · simp [h1]
  by_cases h2 : i - 32 < 32
  · have e : 32 + (i - 32) = i := by omega
    simp [h1, h2, e]
  by_cases h3 : i - 32 - 32 < 32
  · have e : 64 + (i - 32 - 32) = i := by omega
    simp [h1, h2, h3, e]
  by_cases h4 : i - 32 - 32 - 32 < 32
  · have e : 96 + (i - 32 - 32 - 32) = i := by omega
    simp [h1, h2, h3, h4, e]
  by_cases h5 : i - 32 - 32 - 32 - 32 < 8
  · have e : 128 + (i - 32 - 32 - 32 - 32) = i := by omega
    simp [h1, h2, h3, h4, h5, e]
  · have e : 136 + (i - 32 - 32 - 32 - 32 - 8) = i := by omega
    have hb : i - 32 - 32 - 32 - 32 - 8 < 8 := by omega
    simp [h1, h2, h3, h4, h5, e, hb]

/-- Two words are equal exactly when their six fields are. -/
theorem cmd_ext {v w : Cmd} (ho : v.op = w.op) (hu : v.unit = w.unit) (ha : v.slotA = w.slotA) (hb : v.slotB = w.slotB)
    (hc : v.slotC = w.slotC) (hd : v.slotD = w.slotD) : v = w := by
  rw [← pack_fields v, ← pack_fields w, ho, hu, ha, hb, hc, hd]

@[simp] theorem toSlot_toNat {n : Nat} (h : n ≤ 32) (v : BitVec n) : (toSlot v).toNat = v.toNat := by
  have : v.toNat < 2 ^ 32 := Nat.lt_of_lt_of_le v.isLt (Nat.pow_le_pow_right (by decide) h)
  rw [toSlot, BitVec.toNat_setWidth, Nat.mod_eq_of_lt this]

/-- An operand in its slot fits its width (R83, R90). -/
theorem toSlot_lt {n : Nat} (h : n ≤ 32) (v : BitVec n) : (toSlot v).toNat < 2 ^ n := by
  rw [toSlot_toNat h]; exact v.isLt

/-- An operand as wide as a slot is the slot. -/
@[simp] theorem toSlot_self (v : Slot) : toSlot v = v := BitVec.setWidth_eq v

/-- An operand survives its slot (R83). -/
theorem setWidth_toSlot {n : Nat} (h : n ≤ 32) (v : BitVec n) : (toSlot v).setWidth n = v := by
  apply BitVec.eq_of_toNat_eq
  rw [BitVec.toNat_setWidth, toSlot_toNat h, Nat.mod_eq_of_lt v.isLt]

/-- A slot with zero high bits is the operand it carries (R90). -/
theorem toSlot_setWidth {n : Nat} (h : n ≤ 32) (v : Slot) (hv : v.toNat < 2 ^ n) : toSlot (v.setWidth n) = v := by
  apply BitVec.eq_of_toNat_eq
  rw [toSlot_toNat h, BitVec.toNat_setWidth, Nat.mod_eq_of_lt hv]

/-- The code of an opcode reads back as that opcode (R86: the numbers are distinct). -/
@[simp] theorem ofByte_code (o : Opcode) : Opcode.ofByte o.code = some o := by cases o <;> decide

/-- Only an opcode's own code reads as it. -/
theorem code_of_ofByte {b : BitVec 8} {o : Opcode} (h : Opcode.ofByte b = some o) : o.code = b := by
  have := List.find?_some h
  simpa using this

end Sys2Proof
end

