-- ==== Sys2Proof/Laws/State.lean ====
section
/-! SUPPORT. One lemma per field per update: what each operation on the state does to each field of it, by `rfl`, so that no
later proof unfolds a record update; and reading an instance after writing one. -/

namespace Sys2Proof.Machine

section SetChanFields

variable (s : State) (c : Fin Config.NCH) (k : Chan)

@[simp] theorem setChan_chans : (s.setChan c k).chans = s.chans.set c k := rfl
@[simp] theorem setChan_tables : (s.setChan c k).tables = s.tables := rfl
@[simp] theorem setChan_seqs : (s.setChan c k).seqs = s.seqs := rfl
@[simp] theorem setChan_activity : (s.setChan c k).activity = s.activity := rfl
@[simp] theorem setChan_resp : (s.setChan c k).resp = s.resp := rfl
@[simp] theorem setChan_drive : (s.setChan c k).drive = s.drive := rfl
@[simp] theorem setChan_port : (s.setChan c k).port = s.port := rfl
@[simp] theorem setChan_clkUs : (s.setChan c k).clkUs = s.clkUs := rfl
@[simp] theorem setChan_clkMs : (s.setChan c k).clkMs = s.clkMs := rfl
@[simp] theorem setChan_cmds : (s.setChan c k).cmds = s.cmds := rfl
@[simp] theorem setChan_env : (s.setChan c k).env = s.env := rfl
@[simp] theorem setChan_draws : (s.setChan c k).draws = s.draws := rfl
@[simp] theorem setChan_table (i : Fin Config.NTBL) : (s.setChan c k).table i = s.table i := rfl
@[simp] theorem setChan_seq (i : Fin Config.NLED) : (s.setChan c k).seq i = s.seq i := rfl

end SetChanFields

section SetTableFields

variable (s : State) (t : Fin Config.NTBL) (es : Table)

@[simp] theorem setTable_chans : (s.setTable t es).chans = s.chans := rfl
@[simp] theorem setTable_tables : (s.setTable t es).tables = s.tables.set t es := rfl
@[simp] theorem setTable_seqs : (s.setTable t es).seqs = s.seqs := rfl
@[simp] theorem setTable_activity : (s.setTable t es).activity = s.activity := rfl
@[simp] theorem setTable_resp : (s.setTable t es).resp = s.resp := rfl
@[simp] theorem setTable_drive : (s.setTable t es).drive = s.drive := rfl
@[simp] theorem setTable_port : (s.setTable t es).port = s.port := rfl
@[simp] theorem setTable_clkUs : (s.setTable t es).clkUs = s.clkUs := rfl
@[simp] theorem setTable_clkMs : (s.setTable t es).clkMs = s.clkMs := rfl
@[simp] theorem setTable_cmds : (s.setTable t es).cmds = s.cmds := rfl
@[simp] theorem setTable_env : (s.setTable t es).env = s.env := rfl
@[simp] theorem setTable_draws : (s.setTable t es).draws = s.draws := rfl
@[simp] theorem setTable_chan (i : Fin Config.NCH) : (s.setTable t es).chan i = s.chan i := rfl
@[simp] theorem setTable_seq (i : Fin Config.NLED) : (s.setTable t es).seq i = s.seq i := rfl

end SetTableFields

section SetSeqFields

variable (s : State) (d : Fin Config.NLED) (q : Seq)

@[simp] theorem setSeq_chans : (s.setSeq d q).chans = s.chans := rfl
@[simp] theorem setSeq_tables : (s.setSeq d q).tables = s.tables := rfl
@[simp] theorem setSeq_seqs : (s.setSeq d q).seqs = s.seqs.set d q := rfl
@[simp] theorem setSeq_activity : (s.setSeq d q).activity = s.activity := rfl
@[simp] theorem setSeq_resp : (s.setSeq d q).resp = s.resp := rfl
@[simp] theorem setSeq_drive : (s.setSeq d q).drive = s.drive := rfl
@[simp] theorem setSeq_port : (s.setSeq d q).port = s.port := rfl
@[simp] theorem setSeq_clkUs : (s.setSeq d q).clkUs = s.clkUs := rfl
@[simp] theorem setSeq_clkMs : (s.setSeq d q).clkMs = s.clkMs := rfl
@[simp] theorem setSeq_cmds : (s.setSeq d q).cmds = s.cmds := rfl
@[simp] theorem setSeq_env : (s.setSeq d q).env = s.env := rfl
@[simp] theorem setSeq_draws : (s.setSeq d q).draws = s.draws := rfl
@[simp] theorem setSeq_chan (i : Fin Config.NCH) : (s.setSeq d q).chan i = s.chan i := rfl
@[simp] theorem setSeq_table (i : Fin Config.NTBL) : (s.setSeq d q).table i = s.table i := rfl

end SetSeqFields

section SampledUsFields

variable (s : State)

@[simp] theorem sampledUs_chans : (s.sampledUs).chans = s.chans := rfl
@[simp] theorem sampledUs_tables : (s.sampledUs).tables = s.tables := rfl
@[simp] theorem sampledUs_seqs : (s.sampledUs).seqs = s.seqs := rfl
@[simp] theorem sampledUs_activity : (s.sampledUs).activity = s.activity := rfl
@[simp] theorem sampledUs_resp : (s.sampledUs).resp = s.resp := rfl
@[simp] theorem sampledUs_drive : (s.sampledUs).drive = s.drive := rfl
@[simp] theorem sampledUs_port : (s.sampledUs).port = s.port := rfl
@[simp] theorem sampledUs_clkUs : (s.sampledUs).clkUs = s.clkUs.advance (Config.elapsedUs s.draws) := rfl
@[simp] theorem sampledUs_clkMs : (s.sampledUs).clkMs = s.clkMs := rfl
@[simp] theorem sampledUs_cmds : (s.sampledUs).cmds = s.cmds := rfl
@[simp] theorem sampledUs_env : (s.sampledUs).env = s.env := rfl
@[simp] theorem sampledUs_draws : (s.sampledUs).draws = s.draws + 1 := rfl
@[simp] theorem sampledUs_chan (i : Fin Config.NCH) : (s.sampledUs).chan i = s.chan i := rfl
@[simp] theorem sampledUs_table (i : Fin Config.NTBL) : (s.sampledUs).table i = s.table i := rfl
@[simp] theorem sampledUs_seq (i : Fin Config.NLED) : (s.sampledUs).seq i = s.seq i := rfl

end SampledUsFields

section SampledMsFields

variable (s : State)

@[simp] theorem sampledMs_chans : (s.sampledMs).chans = s.chans := rfl
@[simp] theorem sampledMs_tables : (s.sampledMs).tables = s.tables := rfl
@[simp] theorem sampledMs_seqs : (s.sampledMs).seqs = s.seqs := rfl
@[simp] theorem sampledMs_activity : (s.sampledMs).activity = s.activity := rfl
@[simp] theorem sampledMs_resp : (s.sampledMs).resp = s.resp := rfl
@[simp] theorem sampledMs_drive : (s.sampledMs).drive = s.drive := rfl
@[simp] theorem sampledMs_port : (s.sampledMs).port = s.port := rfl
@[simp] theorem sampledMs_clkUs : (s.sampledMs).clkUs = s.clkUs := rfl
@[simp] theorem sampledMs_clkMs : (s.sampledMs).clkMs = s.clkMs.advance (Config.elapsedMs s.draws) := rfl
@[simp] theorem sampledMs_cmds : (s.sampledMs).cmds = s.cmds := rfl
@[simp] theorem sampledMs_env : (s.sampledMs).env = s.env := rfl
@[simp] theorem sampledMs_draws : (s.sampledMs).draws = s.draws + 1 := rfl
@[simp] theorem sampledMs_chan (i : Fin Config.NCH) : (s.sampledMs).chan i = s.chan i := rfl
@[simp] theorem sampledMs_table (i : Fin Config.NTBL) : (s.sampledMs).table i = s.table i := rfl
@[simp] theorem sampledMs_seq (i : Fin Config.NLED) : (s.sampledMs).seq i = s.seq i := rfl

end SampledMsFields

section DrivePortFields

variable (s : State) (m : PortDrive)

@[simp] theorem drivePort_chans : (s.drivePort m).chans = s.chans := rfl
@[simp] theorem drivePort_tables : (s.drivePort m).tables = s.tables := rfl
@[simp] theorem drivePort_seqs : (s.drivePort m).seqs = s.seqs := rfl
@[simp] theorem drivePort_activity : (s.drivePort m).activity = s.activity := rfl
@[simp] theorem drivePort_resp : (s.drivePort m).resp = s.resp := rfl
@[simp] theorem drivePort_drive : (s.drivePort m).drive = m := rfl
@[simp] theorem drivePort_port : (s.drivePort m).port = m.apply s.port := rfl
@[simp] theorem drivePort_clkUs : (s.drivePort m).clkUs = s.clkUs := rfl
@[simp] theorem drivePort_clkMs : (s.drivePort m).clkMs = s.clkMs := rfl
@[simp] theorem drivePort_cmds : (s.drivePort m).cmds = s.cmds := rfl
@[simp] theorem drivePort_env : (s.drivePort m).env = s.env := rfl
@[simp] theorem drivePort_draws : (s.drivePort m).draws = s.draws := rfl
@[simp] theorem drivePort_chan (i : Fin Config.NCH) : (s.drivePort m).chan i = s.chan i := rfl
@[simp] theorem drivePort_table (i : Fin Config.NTBL) : (s.drivePort m).table i = s.table i := rfl
@[simp] theorem drivePort_seq (i : Fin Config.NLED) : (s.drivePort m).seq i = s.seq i := rfl

end DrivePortFields

section QuietFields

variable (s : State)

@[simp] theorem quiet_chans : (s.quiet).chans = s.chans := rfl
@[simp] theorem quiet_tables : (s.quiet).tables = s.tables := rfl
@[simp] theorem quiet_seqs : (s.quiet).seqs = s.seqs := rfl
@[simp] theorem quiet_activity : (s.quiet).activity = s.activity := rfl
@[simp] theorem quiet_resp : (s.quiet).resp = s.resp := rfl
@[simp] theorem quiet_drive : (s.quiet).drive = .none := rfl
@[simp] theorem quiet_port : (s.quiet).port = s.port := rfl
@[simp] theorem quiet_clkUs : (s.quiet).clkUs = s.clkUs := rfl
@[simp] theorem quiet_clkMs : (s.quiet).clkMs = s.clkMs := rfl
@[simp] theorem quiet_cmds : (s.quiet).cmds = s.cmds := rfl
@[simp] theorem quiet_env : (s.quiet).env = s.env := rfl
@[simp] theorem quiet_draws : (s.quiet).draws = s.draws := rfl
@[simp] theorem quiet_chan (i : Fin Config.NCH) : (s.quiet).chan i = s.chan i := rfl
@[simp] theorem quiet_table (i : Fin Config.NTBL) : (s.quiet).table i = s.table i := rfl
@[simp] theorem quiet_seq (i : Fin Config.NLED) : (s.quiet).seq i = s.seq i := rfl

end QuietFields

section OtherAgentWritesFields

variable (s : State) (m v : Pins)

@[simp] theorem otherAgentWrites_chans : (s.otherAgentWrites m v).chans = s.chans := rfl
@[simp] theorem otherAgentWrites_tables : (s.otherAgentWrites m v).tables = s.tables := rfl
@[simp] theorem otherAgentWrites_seqs : (s.otherAgentWrites m v).seqs = s.seqs := rfl
@[simp] theorem otherAgentWrites_activity : (s.otherAgentWrites m v).activity = s.activity := rfl
@[simp] theorem otherAgentWrites_resp : (s.otherAgentWrites m v).resp = s.resp := rfl
@[simp] theorem otherAgentWrites_drive : (s.otherAgentWrites m v).drive = s.drive := rfl
@[simp] theorem otherAgentWrites_port : (s.otherAgentWrites m v).port = (s.port &&& ~~~m) ||| (v &&& m) := rfl
@[simp] theorem otherAgentWrites_clkUs : (s.otherAgentWrites m v).clkUs = s.clkUs := rfl
@[simp] theorem otherAgentWrites_clkMs : (s.otherAgentWrites m v).clkMs = s.clkMs := rfl
@[simp] theorem otherAgentWrites_cmds : (s.otherAgentWrites m v).cmds = s.cmds := rfl
@[simp] theorem otherAgentWrites_env : (s.otherAgentWrites m v).env = s.env := rfl
@[simp] theorem otherAgentWrites_draws : (s.otherAgentWrites m v).draws = s.draws := rfl
@[simp] theorem otherAgentWrites_chan (i : Fin Config.NCH) : (s.otherAgentWrites m v).chan i = s.chan i := rfl
@[simp] theorem otherAgentWrites_table (i : Fin Config.NTBL) : (s.otherAgentWrites m v).table i = s.table i := rfl
@[simp] theorem otherAgentWrites_seq (i : Fin Config.NLED) : (s.otherAgentWrites m v).seq i = s.seq i := rfl

end OtherAgentWritesFields

section RespondFields

variable (s : State) (st : Status) (r0 r1 : Slot)

@[simp] theorem respond_chans : (s.respond st r0 r1).chans = s.chans := rfl
@[simp] theorem respond_tables : (s.respond st r0 r1).tables = s.tables := rfl
@[simp] theorem respond_seqs : (s.respond st r0 r1).seqs = s.seqs := rfl
@[simp] theorem respond_activity : (s.respond st r0 r1).activity = .idle := rfl
@[simp] theorem respond_resp : (s.respond st r0 r1).resp = some { status := st, res0 := r0, res1 := r1 } := rfl
@[simp] theorem respond_drive : (s.respond st r0 r1).drive = s.drive := rfl
@[simp] theorem respond_port : (s.respond st r0 r1).port = s.port := rfl
@[simp] theorem respond_clkUs : (s.respond st r0 r1).clkUs = s.clkUs := rfl
@[simp] theorem respond_clkMs : (s.respond st r0 r1).clkMs = s.clkMs := rfl
@[simp] theorem respond_cmds : (s.respond st r0 r1).cmds = s.cmds := rfl
@[simp] theorem respond_env : (s.respond st r0 r1).env = s.env := rfl
@[simp] theorem respond_draws : (s.respond st r0 r1).draws = s.draws := rfl
@[simp] theorem respond_chan (i : Fin Config.NCH) : (s.respond st r0 r1).chan i = s.chan i := rfl
@[simp] theorem respond_table (i : Fin Config.NTBL) : (s.respond st r0 r1).table i = s.table i := rfl
@[simp] theorem respond_seq (i : Fin Config.NLED) : (s.respond st r0 r1).seq i = s.seq i := rfl

end RespondFields

section DoneFields

variable (s : State)

@[simp] theorem done_chans : (s.done).chans = s.chans := rfl
@[simp] theorem done_tables : (s.done).tables = s.tables := rfl
@[simp] theorem done_seqs : (s.done).seqs = s.seqs := rfl
@[simp] theorem done_activity : (s.done).activity = .idle := rfl
@[simp] theorem done_resp : (s.done).resp = some { status := .ok, res0 := 0, res1 := 0 } := rfl
@[simp] theorem done_drive : (s.done).drive = s.drive := rfl
@[simp] theorem done_port : (s.done).port = s.port := rfl
@[simp] theorem done_clkUs : (s.done).clkUs = s.clkUs := rfl
@[simp] theorem done_clkMs : (s.done).clkMs = s.clkMs := rfl
@[simp] theorem done_cmds : (s.done).cmds = s.cmds := rfl
@[simp] theorem done_env : (s.done).env = s.env := rfl
@[simp] theorem done_draws : (s.done).draws = s.draws := rfl
@[simp] theorem done_chan (i : Fin Config.NCH) : (s.done).chan i = s.chan i := rfl
@[simp] theorem done_table (i : Fin Config.NTBL) : (s.done).table i = s.table i := rfl
@[simp] theorem done_seq (i : Fin Config.NLED) : (s.done).seq i = s.seq i := rfl

end DoneFields

section RaiseFields

variable (s : State) (st : Status)

@[simp] theorem raise_chans : (s.raise st).chans = s.chans := rfl
@[simp] theorem raise_tables : (s.raise st).tables = s.tables := rfl
@[simp] theorem raise_seqs : (s.raise st).seqs = s.seqs := rfl
@[simp] theorem raise_activity : (s.raise st).activity = .idle := rfl
@[simp] theorem raise_resp : (s.raise st).resp = some { status := st, res0 := 0, res1 := 0 } := rfl
@[simp] theorem raise_drive : (s.raise st).drive = s.drive := rfl
@[simp] theorem raise_port : (s.raise st).port = s.port := rfl
@[simp] theorem raise_clkUs : (s.raise st).clkUs = s.clkUs := rfl
@[simp] theorem raise_clkMs : (s.raise st).clkMs = s.clkMs := rfl
@[simp] theorem raise_cmds : (s.raise st).cmds = s.cmds := rfl
@[simp] theorem raise_env : (s.raise st).env = s.env := rfl
@[simp] theorem raise_draws : (s.raise st).draws = s.draws := rfl
@[simp] theorem raise_chan (i : Fin Config.NCH) : (s.raise st).chan i = s.chan i := rfl
@[simp] theorem raise_table (i : Fin Config.NTBL) : (s.raise st).table i = s.table i := rfl
@[simp] theorem raise_seq (i : Fin Config.NLED) : (s.raise st).seq i = s.seq i := rfl

end RaiseFields

section BusyFields

variable (s : State) (a : Activity)

@[simp] theorem busy_chans : (s.busy a).chans = s.chans := rfl
@[simp] theorem busy_tables : (s.busy a).tables = s.tables := rfl
@[simp] theorem busy_seqs : (s.busy a).seqs = s.seqs := rfl
@[simp] theorem busy_activity : (s.busy a).activity = a := rfl
@[simp] theorem busy_resp : (s.busy a).resp = none := rfl
@[simp] theorem busy_drive : (s.busy a).drive = s.drive := rfl
@[simp] theorem busy_port : (s.busy a).port = s.port := rfl
@[simp] theorem busy_clkUs : (s.busy a).clkUs = s.clkUs := rfl
@[simp] theorem busy_clkMs : (s.busy a).clkMs = s.clkMs := rfl
@[simp] theorem busy_cmds : (s.busy a).cmds = s.cmds := rfl
@[simp] theorem busy_env : (s.busy a).env = s.env := rfl
@[simp] theorem busy_draws : (s.busy a).draws = s.draws := rfl
@[simp] theorem busy_chan (i : Fin Config.NCH) : (s.busy a).chan i = s.chan i := rfl
@[simp] theorem busy_table (i : Fin Config.NTBL) : (s.busy a).table i = s.table i := rfl
@[simp] theorem busy_seq (i : Fin Config.NLED) : (s.busy a).seq i = s.seq i := rfl

end BusyFields

section HangFields

variable (s : State)

@[simp] theorem hang_chans : (s.hang).chans = s.chans := rfl
@[simp] theorem hang_tables : (s.hang).tables = s.tables := rfl
@[simp] theorem hang_seqs : (s.hang).seqs = s.seqs := rfl
@[simp] theorem hang_activity : (s.hang).activity = .hung := rfl
@[simp] theorem hang_resp : (s.hang).resp = none := rfl
@[simp] theorem hang_drive : (s.hang).drive = s.drive := rfl
@[simp] theorem hang_port : (s.hang).port = s.port := rfl
@[simp] theorem hang_clkUs : (s.hang).clkUs = s.clkUs := rfl
@[simp] theorem hang_clkMs : (s.hang).clkMs = s.clkMs := rfl
@[simp] theorem hang_cmds : (s.hang).cmds = s.cmds := rfl
@[simp] theorem hang_env : (s.hang).env = s.env := rfl
@[simp] theorem hang_draws : (s.hang).draws = s.draws := rfl
@[simp] theorem hang_chan (i : Fin Config.NCH) : (s.hang).chan i = s.chan i := rfl
@[simp] theorem hang_table (i : Fin Config.NTBL) : (s.hang).table i = s.table i := rfl
@[simp] theorem hang_seq (i : Fin Config.NLED) : (s.hang).seq i = s.seq i := rfl

end HangFields

section ApplyResetFields

variable (s : State)

@[simp] theorem applyReset_chans : (s.applyReset).chans = State.reset.chans := rfl
@[simp] theorem applyReset_tables : (s.applyReset).tables = State.reset.tables := rfl
@[simp] theorem applyReset_seqs : (s.applyReset).seqs = State.reset.seqs := rfl
@[simp] theorem applyReset_activity : (s.applyReset).activity = .idle := rfl
@[simp] theorem applyReset_resp : (s.applyReset).resp = none := rfl
@[simp] theorem applyReset_drive : (s.applyReset).drive = .none := rfl
@[simp] theorem applyReset_port : (s.applyReset).port = s.port := rfl
@[simp] theorem applyReset_clkUs : (s.applyReset).clkUs = s.clkUs := rfl
@[simp] theorem applyReset_clkMs : (s.applyReset).clkMs = s.clkMs := rfl
@[simp] theorem applyReset_cmds : (s.applyReset).cmds = s.cmds := rfl
@[simp] theorem applyReset_env : (s.applyReset).env = s.env := rfl
@[simp] theorem applyReset_draws : (s.applyReset).draws = s.draws := rfl

end ApplyResetFields

section AfterPollFields

variable (s : State) (k : Chan)

@[simp] theorem afterPoll_chans : (s.afterPoll k).chans = s.chans := rfl
@[simp] theorem afterPoll_tables : (s.afterPoll k).tables = s.tables := rfl
@[simp] theorem afterPoll_seqs : (s.afterPoll k).seqs = s.seqs := rfl
@[simp] theorem afterPoll_activity : (s.afterPoll k).activity = s.activity := rfl
@[simp] theorem afterPoll_resp : (s.afterPoll k).resp = s.resp := rfl
@[simp] theorem afterPoll_drive : (s.afterPoll k).drive = k.pollDrive s.clkUs.now := rfl
@[simp] theorem afterPoll_port : (s.afterPoll k).port = (k.pollDrive s.clkUs.now).apply s.port := rfl
@[simp] theorem afterPoll_clkUs : (s.afterPoll k).clkUs = s.clkUs.advance (Config.elapsedUs s.draws) := rfl
@[simp] theorem afterPoll_clkMs : (s.afterPoll k).clkMs = s.clkMs := rfl
@[simp] theorem afterPoll_cmds : (s.afterPoll k).cmds = s.cmds := rfl
@[simp] theorem afterPoll_env : (s.afterPoll k).env = s.env := rfl
@[simp] theorem afterPoll_draws : (s.afterPoll k).draws = s.draws + 1 := rfl
@[simp] theorem afterPoll_chan (i : Fin Config.NCH) : (s.afterPoll k).chan i = s.chan i := rfl
@[simp] theorem afterPoll_table (i : Fin Config.NTBL) : (s.afterPoll k).table i = s.table i := rfl
@[simp] theorem afterPoll_seq (i : Fin Config.NLED) : (s.afterPoll k).seq i = s.seq i := rfl

end AfterPollFields

section PresentFields

variable (s : State) (w : Cmd)

@[simp] theorem present_chans : (s.present w).chans = s.chans := rfl
@[simp] theorem present_tables : (s.present w).tables = s.tables := rfl
@[simp] theorem present_seqs : (s.present w).seqs = s.seqs := rfl
@[simp] theorem present_activity : (s.present w).activity = .idle := rfl
@[simp] theorem present_resp : (s.present w).resp = s.resp := rfl
@[simp] theorem present_drive : (s.present w).drive = s.drive := rfl
@[simp] theorem present_port : (s.present w).port = s.port := rfl
@[simp] theorem present_clkUs : (s.present w).clkUs = s.clkUs := rfl
@[simp] theorem present_clkMs : (s.present w).clkMs = s.clkMs := rfl
@[simp] theorem present_cmds : (s.present w).cmds = w :: s.cmds := rfl
@[simp] theorem present_env : (s.present w).env = .pass :: s.env := rfl
@[simp] theorem present_draws : (s.present w).draws = s.draws := rfl
@[simp] theorem present_chan (i : Fin Config.NCH) : (s.present w).chan i = s.chan i := rfl
@[simp] theorem present_table (i : Fin Config.NTBL) : (s.present w).table i = s.table i := rfl
@[simp] theorem present_seq (i : Fin Config.NLED) : (s.present w).seq i = s.seq i := rfl

end PresentFields

/-! ## Reading an instance after writing one -/

@[simp] theorem chan_setChan_self (s : State) (i : Fin Config.NCH) (k : Chan) : (s.setChan i k).chan i = k := by
  simp [State.chan, State.setChan, Vector.get_eq_getElem]

theorem chan_setChan_ne (s : State) (i j : Fin Config.NCH) (k : Chan) (h : j ≠ i) : (s.setChan i k).chan j = s.chan j := by
  have : (i : Nat) ≠ j := fun e => h (Fin.ext e.symm)
  simp [State.chan, State.setChan, Vector.get_eq_getElem, this]

theorem chan_setChan (s : State) (i j : Fin Config.NCH) (k : Chan) :
    (s.setChan i k).chan j = if j = i then k else s.chan j := by
  by_cases h : j = i
  · subst h; simp
  · simp [h, chan_setChan_ne s i j k h]

@[simp] theorem table_setTable_self (s : State) (i : Fin Config.NTBL) (es : Table) : (s.setTable i es).table i = es := by
  simp [State.table, State.setTable, Vector.get_eq_getElem]

theorem table_setTable_ne (s : State) (i j : Fin Config.NTBL) (es : Table) (h : j ≠ i) : (s.setTable i es).table j = s.table j := by
  have : (i : Nat) ≠ j := fun e => h (Fin.ext e.symm)
  simp [State.table, State.setTable, Vector.get_eq_getElem, this]

theorem table_setTable (s : State) (i j : Fin Config.NTBL) (es : Table) :
    (s.setTable i es).table j = if j = i then es else s.table j := by
  by_cases h : j = i
  · subst h; simp
  · simp [h, table_setTable_ne s i j es h]

@[simp] theorem seq_setSeq_self (s : State) (i : Fin Config.NLED) (q : Seq) : (s.setSeq i q).seq i = q := by
  simp [State.seq, State.setSeq, Vector.get_eq_getElem]

theorem seq_setSeq_ne (s : State) (i j : Fin Config.NLED) (q : Seq) (h : j ≠ i) : (s.setSeq i q).seq j = s.seq j := by
  have : (i : Nat) ≠ j := fun e => h (Fin.ext e.symm)
  simp [State.seq, State.setSeq, Vector.get_eq_getElem, this]

theorem seq_setSeq (s : State) (i j : Fin Config.NLED) (q : Seq) :
    (s.setSeq i q).seq j = if j = i then q else s.seq j := by
  by_cases h : j = i
  · subst h; simp
  · simp [h, seq_setSeq_ne s i j q h]

@[simp] theorem reset_chan (c : Fin Config.NCH) : State.reset.chan c = Chan.reset := by
  simp [State.chan, State.reset, Vector.get_eq_getElem]

@[simp] theorem reset_table (t : Fin Config.NTBL) : State.reset.table t = [] := by
  simp [State.table, State.reset, Vector.get_eq_getElem]

@[simp] theorem reset_seq (d : Fin Config.NLED) : State.reset.seq d = Seq.reset := by
  simp [State.seq, State.reset, Vector.get_eq_getElem]

end Sys2Proof.Machine
end

