-- ==== Sys2Proof/Laws/Ops.lean ====
section
/-! SUPPORT. One lemma per shared operation that says what it can do; the proofs about the commands cite these. -/

namespace Sys2Proof.Machine

/-! ## Indices -/

theorem instanceOf_of_lt {n : Nat} {u : Unit8} (h : u.toNat < n) : instanceOf n u = some ⟨u.toNat, h⟩ := by
  simp [instanceOf, h]

theorem instanceOf_of_ge {n : Nat} {u : Unit8} (h : n ≤ u.toNat) : instanceOf n u = none := by
  simp [instanceOf, Nat.not_lt.mpr h]

/-- A command whose index names an instance runs on it. -/
theorem onInstance_of_lt {n : Nat} {u : Unit8} (h : u.toNat < n) (s : State) (f : Fin n → State) :
    onInstance n u s f = .next (f ⟨u.toNat, h⟩) := by
  simp [onInstance, instanceOf_of_lt h]

/-- A command whose index names none is illegal (R88). -/
theorem onInstance_of_ge {n : Nat} {u : Unit8} (h : n ≤ u.toNat) (s : State) (f : Fin n → State) :
    onInstance n u s f = .next (s.raise .illegalCommand) := by
  simp [onInstance, instanceOf_of_ge h]

/-- What `onInstance` can answer: the illegal response, or what the command does on some instance. -/
theorem onInstance_cases {n : Nat} (u : Unit8) (s : State) (f : Fin n → State) :
    onInstance n u s f = .next (s.raise .illegalCommand) ∨ ∃ k : Fin n, k.val = u.toNat ∧ onInstance n u s f = .next (f k) := by
  by_cases h : u.toNat < n
  · exact .inr ⟨⟨u.toNat, h⟩, rfl, onInstance_of_lt h s f⟩
  · exact .inl (onInstance_of_ge (Nat.not_lt.mp h) s f)

/-! ## The environment -/

/-- Where nothing disturbs it the block takes its step, and the event is used up. -/
theorem step_of_undisturbed {s : State} (h : s.undisturbed) : step s = blockStep { s with env := s.env.tail } := by
  rcases s with ⟨_, _, _, _, _, _, _, _, _, _, env, _⟩
  rcases h with h | h
  · simp only at h; subst h; rfl
  · cases env with
    | nil => simp at h
    | cons e es => simp at h; subst h; rfl

/-! ## Clock inputs -/

@[simp] theorem advance_nil {w : Nat} (v : BitVec w) (e : Nat) :
    ClockIn.advance { now := v, ahead := [] } e = { now := v + BitVec.ofNat w e, ahead := [] } := rfl

@[simp] theorem advance_cons {w : Nat} (v : BitVec w) (n : Nat) (rest : List Nat) (e : Nat) :
    ClockIn.advance { now := v, ahead := n :: rest } e = { now := v + BitVec.ofNat w n, ahead := rest } := rfl

/-! ## The channel -/

/-- R104: a poll that fails the time test leaves the channel as it was. -/
theorem polled_of_not_due {k : Chan} {T : Us} (h : k.due T = false) (a : Us) : k.polled T a = k := by
  simp [Chan.polled, h]

/-- R104: and drives no mask output. -/
theorem pollDrive_of_not_due {k : Chan} {T : Us} (h : k.due T = false) : k.pollDrive T = .none := by
  simp [Chan.pollDrive, h]

/-- What a poll can do to a channel: nothing, re-arm with the period, or make a transition. -/
theorem polled_cases (k : Chan) (T a : Us) :
    (k.due T = false ∧ k.polled T a = k ∧ k.pollDrive T = .none) ∨
    (k.due T = true ∧ k.toggles = false ∧ k.polled T a = { k with keep := k.period, lastSw := T } ∧
      k.pollDrive T = .none) ∨
    (k.due T = true ∧ k.toggles = true ∧ k.polled T a = { k with on := !k.on, keep := k.nextHold a, lastSw := T } ∧
      k.pollDrive T = if k.on then .clear k.pin else .set k.pin) := by
  cases hd : k.due T <;> cases ht : k.toggles <;> simp [Chan.polled, Chan.pollDrive, hd, ht]

@[simp] theorem polled_pin (k : Chan) (T a : Us) : (k.polled T a).pin = k.pin := by
  rcases polled_cases k T a with ⟨_, h, _⟩ | ⟨_, _, h, _⟩ | ⟨_, _, h, _⟩ <;> rw [h]

@[simp] theorem polled_period (k : Chan) (T a : Us) : (k.polled T a).period = k.period := by
  rcases polled_cases k T a with ⟨_, h, _⟩ | ⟨_, _, h, _⟩ | ⟨_, _, h, _⟩ <;> rw [h]

@[simp] theorem polled_duty (k : Chan) (T a : Us) : (k.polled T a).duty = k.duty := by
  rcases polled_cases k T a with ⟨_, h, _⟩ | ⟨_, _, h, _⟩ | ⟨_, _, h, _⟩ <;> rw [h]

@[simp] theorem polled_full (k : Chan) (T a : Us) : (k.polled T a).full = k.full := by
  rcases polled_cases k T a with ⟨_, h, _⟩ | ⟨_, _, h, _⟩ | ⟨_, _, h, _⟩ <;> rw [h]

/-- The hold a transition arms is the one R106 and R110 give for the side the channel goes to. -/
theorem nextHold_eq_rule (k : Chan) (a : Us) :
    k.nextHold a = if k.on = true then holdRule k (k.full.toNat - k.duty.toNat) a else holdRule k k.duty.toNat a := by
  unfold Chan.nextHold holdRule Chan.holdOn Chan.holdOff scale Chan.wellFormedDuty
  by_cases h : k.full = 0 ∨ k.full.toNat < k.duty.toNat
  · rw [if_pos h, if_pos h, if_neg]
    · simp
    · rcases h with h | h
      · simp [h]
      · simp only [Bool.and_eq_true, decide_eq_true_eq]; omega
  · rw [if_neg h, if_neg h, if_pos]
    have h1 : k.full.toNat ≠ 0 := fun e => h (.inl (BitVec.eq_of_toNat_eq (by simpa using e)))
    have h2 : ¬ k.full.toNat < k.duty.toNat := fun e => h (.inr e)
    simp only [Bool.and_eq_true, decide_eq_true_eq]; omega

/-- `ChanPoll` of the model is the pseudocode of R105. -/
theorem pollRule_eq (k : Chan) (T a : Us) : pollRule k T a = (k.polled T a, k.pollDrive T) := by
  unfold pollRule Chan.polled Chan.pollDrive
  by_cases hd : (T - k.lastSw).toNat < k.keep.toNat
  · have : k.due T = false := by simpa [Chan.due] using Nat.not_le.mpr hd
    rw [if_pos hd]; simp [this]
  · have : k.due T = true := by simpa [Chan.due] using Nat.not_lt.mp hd
    rw [if_neg hd, this, nextHold_eq_rule]
    cases ho : k.on <;> by_cases h1 : k.duty = k.full <;> by_cases h2 : k.duty = 0 <;>
      simp [Chan.toggles, ho, h1, h2] <;> simp_all

theorem portRule_eq (d : PortDrive) (p : Pins) : portRule d p = d.apply p := by cases d <;> rfl

/-! ## Tables -/

theorem getLast?_eq_none_of_empty {es : Table} (h : es.getLast? = none) : es = [] := List.getLast?_eq_none_iff.mp h

@[simp] theorem mirrored_length (es : Table) (P : XVal) : (es.mirrored P).length = es.length + (es.length - 1) := by
  simp [Table.mirrored]

@[simp] theorem nplicated_length (es : Table) (P : XVal) (n : Nat) :
    (es.nplicated P n).length = es.length * (n + 1) := by
  have h : (List.map (fun _ : Nat => es.length) (List.range n)).sum = n * es.length := by simp
  simp only [Table.nplicated, List.length_append, List.length_flatMap, List.length_map]
  rw [h]; ring

@[simp] theorem lookup_nil (q : XVal) : Table.lookup [] q = .empty := rfl

/-- A table with an entry is never answered `EMPTY_TABLE`. -/
theorem lookup_ne_empty {es : Table} (h : es ≠ []) (q : XVal) : Table.lookup es q ≠ .empty := by
  unfold Table.lookup
  cases hl : es.getLast? with
  | none => exact absurd (List.getLast?_eq_none_iff.mp hl) h
  | some last =>
    cases es with
    | nil => exact absurd rfl h
    | cons e rest =>
      simp only
      split
      · simp
      · split
        · simp
        · split <;> simp

/-- The scan's answer is a pair of entries, the right one the first above the query. -/
theorem bracket_some {q : XVal} {l : Breakpoint} {rs : List Breakpoint} {p : Breakpoint × Breakpoint}
    (h : bracket q l rs = some p) : p.1 ∈ l :: rs ∧ p.2 ∈ rs ∧ q.toNat < p.2.x.toNat := by
  induction rs generalizing l with
  | nil => simp [bracket] at h
  | cons r rs ih =>
    unfold bracket at h
    split at h
    · cases h; simpa
    · obtain ⟨h1, h2, h3⟩ := ih h
      exact ⟨List.mem_cons_of_mem _ h1, List.mem_cons_of_mem _ h2, h3⟩

/-! ## The sequencer -/

section PollEmbedded

variable (s : State) (d : Fin Config.NLED)

@[simp] theorem pollEmbedded_chans : (s.pollEmbedded d).chans = s.chans := rfl
@[simp] theorem pollEmbedded_tables : (s.pollEmbedded d).tables = s.tables := rfl
@[simp] theorem pollEmbedded_activity : (s.pollEmbedded d).activity = s.activity := rfl
@[simp] theorem pollEmbedded_resp : (s.pollEmbedded d).resp = s.resp := rfl
@[simp] theorem pollEmbedded_clkMs : (s.pollEmbedded d).clkMs = s.clkMs := rfl
@[simp] theorem pollEmbedded_cmds : (s.pollEmbedded d).cmds = s.cmds := rfl
@[simp] theorem pollEmbedded_env : (s.pollEmbedded d).env = s.env := rfl
@[simp] theorem pollEmbedded_chan (c : Fin Config.NCH) : (s.pollEmbedded d).chan c = s.chan c := rfl
@[simp] theorem pollEmbedded_table (t : Fin Config.NTBL) : (s.pollEmbedded d).table t = s.table t := rfl

@[simp] theorem pollEmbedded_seq_self :
    (s.pollEmbedded d).seq d = { s.seq d with ch := (s.seq d).ch.polled s.clkUs.now (Config.anyTW s.draws) } := by
  simp [State.pollEmbedded, State.polledChan]

theorem pollEmbedded_seq_ne (e : Fin Config.NLED) (h : e ≠ d) : (s.pollEmbedded d).seq e = s.seq e := by
  simp [State.pollEmbedded, seq_setSeq_ne _ _ _ _ h]

/-- The embedded poll of the model is `ChanPoll` on the embedded channel (R153). -/
theorem pollEmbedded_eq_rule : s.pollEmbedded d = s.embeddedPollRule d (s.seq d) := by
  simp only [State.embeddedPollRule, pollRule_eq, portRule_eq]; rfl

/-- The embedded poll after a write of the sequencer's registers. -/
theorem pollEmbedded_setSeq (q : Seq) : (s.setSeq d q).pollEmbedded d = s.embeddedPollRule d q := by
  simp only [pollEmbedded_eq_rule, State.embeddedPollRule, seq_setSeq_self]
  simp [State.setSeq]

end PollEmbedded

/-- What the throttle part answers, by what it finds (R152 to R154, R157). -/
theorem tick_cases (q : Seq) (es : Table) (now : Ms) (a : Duty) :
    (q.throttled now = true ∧ q.tick es now a = .between) ∨
    (q.throttled now = false ∧ es = [] ∧ q.tick es now a = .empty) ∨
    (q.throttled now = false ∧ ∃ last, es.getLast? = some last ∧ last.x = 0 ∧ q.tick es now a = .hang) ∨
    (q.throttled now = false ∧ ∃ last, es.getLast? = some last ∧ last.x ≠ 0 ∧
      q.tick es now a = .update (q.ticked es last.x now a)) := by
  unfold Seq.tick
  cases ht : q.throttled now with
  | true => simp
  | false =>
    cases hl : es.getLast? with
    | none => simp [List.getLast?_eq_none_iff.mp hl]
    | some last =>
      by_cases hx : last.x = 0
      · right; right; left; simp [hx]
      · refine .inr (.inr (.inr ⟨rfl, last, rfl, hx, ?_⟩))
        simp only [Bool.false_eq_true, if_false, if_neg hx]

/-- What `LedPollBody` can do. -/
theorem ledPollBody_cases (s : State) (d : Fin Config.NLED) (t : Fin Config.NTBL) (go : State → State) :
    s.ledPollBody d t go = go (s.sampledMs.pollEmbedded d) ∨
    (s.table t = [] ∧ s.ledPollBody d t go = s.sampledMs.raise .emptyTable) ∨
    ((∃ last, (s.table t).getLast? = some last ∧ last.x = 0) ∧ s.ledPollBody d t go = s.sampledMs.hang) ∨
    (∃ last, (s.table t).getLast? = some last ∧ last.x ≠ 0 ∧
      s.ledPollBody d t go =
        go ((s.sampledMs.setSeq d
          ((s.seq d).ticked (s.table t) last.x s.clkMs.now (Config.anyYW s.draws))).pollEmbedded d)) := by
  unfold State.ledPollBody
  rcases tick_cases (s.seq d) (s.table t) s.clkMs.now (Config.anyYW s.draws) with
    ⟨_, h⟩ | ⟨_, he, h⟩ | ⟨_, last, hl, hx, h⟩ | ⟨_, last, hl, hx, h⟩
  · left; rw [h]
  · right; left; exact ⟨he, by rw [h]⟩
  · right; right; left; exact ⟨⟨last, hl, hx⟩, by rw [h]⟩
  · right; right; right; exact ⟨last, hl, hx, by rw [h]⟩

/-- A pass of the loop of `LED.CYCLE` at or past the target ends the command. -/
theorem cyclePass_of_reached {s : State} {j : CycleJob} (h : j.target.toNat ≤ (s.clkMs.now - j.t0).toNat) :
    s.cyclePass j = s.sampledMs.done := by
  unfold State.cyclePass
  exact if_pos h

/-- A pass before the target is one `LedPollBody`. -/
theorem cyclePass_of_not_reached {s : State} {j : CycleJob} (h : (s.clkMs.now - j.t0).toNat < j.target.toNat) :
    s.cyclePass j = s.sampledMs.ledPollBody j.d j.t (fun s' => s'.busy (.cycling j)) := by
  unfold State.cyclePass
  exact if_neg (Nat.not_le.mpr h)

end Sys2Proof.Machine
end

