-- ==== Sys2Proof/Laws/PerInstr.lean ====
section
/-! SUPPORT. Statements made per instruction, one lemma per constructor of `Instr`: the family `Fields` says that the
word of a command carries its opcode's number and its unit in the fields of spec/30_encoding.md R81 and R86. -/

namespace Sys2Proof.Laws.Fields

/-- R81, R86: the `op` and `unit` fields of the word of `i`. -/
def Statement (i : Instr) : Prop := (encode i).op = i.opcode.code ∧ (encode i).unit = i.unit

theorem pwmInit (c : Unit8) (pin : Pins) (period : Us) (duty : Duty) (full : Duty) : Statement (.pwmInit c pin period duty full) := ⟨op_pack .., unit_pack ..⟩

theorem pwmPoll (c : Unit8) : Statement (.pwmPoll c) := ⟨op_pack .., unit_pack ..⟩

theorem pwmSetDuty (c : Unit8) (duty : Duty) : Statement (.pwmSetDuty c duty) := ⟨op_pack .., unit_pack ..⟩

theorem pwmSetPeriod (c : Unit8) (period : Us) : Statement (.pwmSetPeriod c period) := ⟨op_pack .., unit_pack ..⟩

theorem tblInit (t : Unit8) : Statement (.tblInit t) := ⟨op_pack .., unit_pack ..⟩

theorem tblPush (t : Unit8) (x : XVal) (y : Duty) : Statement (.tblPush t x y) := ⟨op_pack .., unit_pack ..⟩

theorem tblMirror (t : Unit8) : Statement (.tblMirror t) := ⟨op_pack .., unit_pack ..⟩

theorem tblNplicate (t : Unit8) (n : Repeat) : Statement (.tblNplicate t n) := ⟨op_pack .., unit_pack ..⟩

theorem tblInterp (t : Unit8) (x : XVal) : Statement (.tblInterp t x) := ⟨op_pack .., unit_pack ..⟩

theorem tblPop (t : Unit8) : Statement (.tblPop t) := ⟨op_pack .., unit_pack ..⟩

theorem ledInit (d : Unit8) (pin : Pins) (g : Gain) : Statement (.ledInit d pin g) := ⟨op_pack .., unit_pack ..⟩

theorem ledPoll (d : Unit8) (tbl : Unit8) : Statement (.ledPoll d tbl) := ⟨op_pack .., unit_pack ..⟩

theorem ledCycle (d : Unit8) (tbl : Unit8) (N : Ms) : Statement (.ledCycle d tbl N) := ⟨op_pack .., unit_pack ..⟩

end Sys2Proof.Laws.Fields
end

