-- ==== Sys2Proof/Machine/Assembler.lean ====
section
/-! DEFINITION. The assembler's line (spec/30_encoding.md R93 to R95): a mnemonic, the unit index, the operands in slot
order, separated by commas; numbers decimal or hexadecimal with `0x`; `#` opens a comment. The blanks a line may hold
and the refusal of a number that does not fit are log 21.

A line is a list of characters, so that the kernel can evaluate it. -/

namespace Sys2Proof.Machine

/-- A space or a tab. -/
def isBlank (c : Char) : Bool := c == ' ' || c == '\t'

/-- A word without the blanks around it. -/
def trimBlanks (cs : List Char) : List Char := ((cs.dropWhile isBlank).reverse.dropWhile isBlank).reverse

/-- The pieces between commas. -/
def splitCommas : List Char → List (List Char)
  | [] => [[]]
  | c :: cs =>
    if c == ',' then [] :: splitCommas cs
    else
      match splitCommas cs with
      | [] => [[c]]
      | w :: ws => (c :: w) :: ws

/-- The value of a digit in base 16. -/
def digitValue (c : Char) : Option Nat :=
  let n := c.toNat
  if 48 ≤ n && n ≤ 57 then some (n - 48)
  else if 65 ≤ n && n ≤ 70 then some (n - 55)
  else if 97 ≤ n && n ≤ 102 then some (n - 87)
  else none

/-- Digits of base `b`, added to `acc`. -/
def digits (b : Nat) : List Char → Nat → Option Nat
  | [], acc => some acc
  | c :: cs, acc =>
    match digitValue c with
    | none => none
    | some d => if d < b then digits b cs (acc * b + d) else none

/-- A number: decimal, or hexadecimal with `0x`. -/
def number (cs : List Char) : Option Nat :=
  match cs with
  | [] => none
  | '0' :: 'x' :: [] => none
  | '0' :: 'x' :: rest => digits 16 rest 0
  | _ => digits 10 cs 0

/-- The operands as pairs `x, y`. -/
def pairUp : List Nat → Option (List (Nat × Nat))
  | [] => some []
  | [_] => none
  | x :: y :: rest => (pairUp rest).map (fun ps => (x, y) :: ps)

/-- The mnemonics of R93 and R95. -/
inductive Mnemonic where
  | pwmInit | pwmPoll | pwmSetDuty | pwmSetPeriod
  | tblInit | tblPush | tblMirror | tblNplicate | tblInterp | tblPop
  | ledInit | ledPoll | ledCycle
  | tblPushN | mkOn | mkOff | mkBreathe | mkBlink
  deriving DecidableEq, Repr

/-- How each is written. -/
def Mnemonic.table : List (List Char × Mnemonic) :=
  [(['P', 'W', 'M', '.', 'I', 'N', 'I', 'T'], .pwmInit),
    (['P', 'W', 'M', '.', 'P', 'O', 'L', 'L'], .pwmPoll),
    (['P', 'W', 'M', '.', 'S', 'E', 'T', 'D', 'U', 'T', 'Y'], .pwmSetDuty),
    (['P', 'W', 'M', '.', 'S', 'E', 'T', 'P', 'E', 'R', 'I', 'O', 'D'], .pwmSetPeriod)] ++
  [(['T', 'B', 'L', '.', 'I', 'N', 'I', 'T'], .tblInit),
    (['T', 'B', 'L', '.', 'P', 'U', 'S', 'H'], .tblPush),
    (['T', 'B', 'L', '.', 'M', 'I', 'R', 'R', 'O', 'R'], .tblMirror),
    (['T', 'B', 'L', '.', 'N', 'P', 'L', 'I', 'C', 'A', 'T', 'E'], .tblNplicate),
    (['T', 'B', 'L', '.', 'I', 'N', 'T', 'E', 'R', 'P'], .tblInterp),
    (['T', 'B', 'L', '.', 'P', 'O', 'P'], .tblPop)] ++
  [(['L', 'E', 'D', '.', 'I', 'N', 'I', 'T'], .ledInit),
    (['L', 'E', 'D', '.', 'P', 'O', 'L', 'L'], .ledPoll),
    (['L', 'E', 'D', '.', 'C', 'Y', 'C', 'L', 'E'], .ledCycle)] ++
  [(['T', 'B', 'L', '.', 'P', 'U', 'S', 'H', 'N'], .tblPushN),
    (['M', 'K', '.', 'O', 'N'], .mkOn),
    (['M', 'K', '.', 'O', 'F', 'F'], .mkOff),
    (['M', 'K', '.', 'B', 'R', 'E', 'A', 'T', 'H', 'E'], .mkBreathe),
    (['M', 'K', '.', 'B', 'L', 'I', 'N', 'K'], .mkBlink)]

/-- The mnemonic a word spells. -/
def Mnemonic.ofChars (cs : List Char) : Option Mnemonic :=
  (Mnemonic.table.find? (fun p => p.1 == cs)).map (fun p => p.2)

/-- The commands of a mnemonic with its operands after the unit index `u` (R93), with the defaults of R94. -/
def Mnemonic.expand (m : Mnemonic) (u : Unit8) (ops : List Nat) : Option (List Instr) :=
  match m, ops with
  | .pwmInit, [pin, period, duty] => do
    pure [.pwmInit u (← operand Config.PW pin) (← operand Config.TW period) (← operand Config.DW duty) Config.FULL_DUTY_DEFAULT]
  | .pwmInit, [pin, period, duty, full] => do
    pure [.pwmInit u (← operand Config.PW pin) (← operand Config.TW period) (← operand Config.DW duty) (← operand Config.DW full)]
  | .pwmPoll, [] => some [.pwmPoll u]
  | .pwmSetDuty, [duty] => do pure [.pwmSetDuty u (← operand Config.DW duty)]
  | .pwmSetPeriod, [period] => do pure [.pwmSetPeriod u (← operand Config.TW period)]
  | .tblInit, [] => some [.tblInit u]
  | .tblPush, [x, y] => do pure [← pushNat u (x, y)]
  | .tblMirror, [] => some [.tblMirror u]
  | .tblNplicate, [n] => do pure [.tblNplicate u (← operand Config.NW n)]
  | .tblInterp, [x] => do pure [.tblInterp u (← operand Config.XW x)]
  | .tblPop, [] => some [.tblPop u]
  | .ledInit, [pin] => do pure [.ledInit u (← operand Config.PW pin) Config.ONE]
  | .ledInit, [pin, intensity] => do pure [.ledInit u (← operand Config.PW pin) (← operand Config.IW intensity)]
  | .ledPoll, [tbl] => do pure [.ledPoll u (← operand Config.TBLW tbl)]
  | .ledCycle, [tbl, n] => do pure [.ledCycle u (← operand Config.TBLW tbl) (← operand Config.MW n)]
  | .tblPushN, ps => do pushN u (← pairUp ps)
  | .mkOn, [] => Sys2Proof.Machine.mkOn u
  | .mkOff, [] => Sys2Proof.Machine.mkOff u
  | .mkBreathe, [P] => Sys2Proof.Machine.mkBreathe u P
  | .mkBlink, [N, on, off, pause] => Sys2Proof.Machine.mkBlink u N on off pause
  | _, _ => none

/-- One line: nothing (blank, or a comment), or the commands of a mnemonic. `none` rejects the line. -/
def assembleLine (line : List Char) : Option (List Instr) :=
  let code := trimBlanks (line.takeWhile (fun c => c != '#'))
  match code with
  | [] => some []
  | _ => do
    let m ← Mnemonic.ofChars (code.takeWhile (fun c => !isBlank c))
    let nums ← (splitCommas (code.dropWhile (fun c => !isBlank c))).mapM (fun w => number (trimBlanks w))
    match nums with
    | [] => none
    | u :: ops => do m.expand (← operand Config.TBLW u) ops

end Sys2Proof.Machine
end

