-- ==== Sys2Proof/Tests/Slice0.lean ====
section
/-! SUPPORT. The model's own tests: WellFormed's checks, command words written out from the spec's encoding, one or two
vectors of spec/95_test_vectors.md per command, and for each statement with hypotheses a state and operands that meet
them. The expected values are the spec's. -/

namespace Sys2Proof.Tests

open Sys2Proof.Machine

/-! ## WellFormed (30_encoding.md R88): one ill-formed term for each check -/

theorem test_wf_channel_index : (Instr.pwmInit 4 1 1000 25 100).wf = false ∧ (Instr.pwmPoll 4).wf = false ∧
    (Instr.pwmSetDuty 255 0).wf = false ∧ (Instr.pwmSetPeriod 4 0).wf = false := by decide

theorem test_wf_table_index : (Instr.tblInit 4).wf = false ∧ (Instr.tblPush 4 0 0).wf = false ∧
    (Instr.tblMirror 4).wf = false ∧ (Instr.tblNplicate 4 0).wf = false ∧ (Instr.tblInterp 4 0).wf = false ∧
    (Instr.tblPop 4).wf = false := by decide

theorem test_wf_sequencer_index : (Instr.ledInit 4 0 0).wf = false ∧ (Instr.ledPoll 4 0).wf = false ∧
    (Instr.ledCycle 4 0 0).wf = false := by decide

theorem test_wf_table_operand : (Instr.ledPoll 0 4).wf = false ∧ (Instr.ledCycle 0 4 0).wf = false := by decide

theorem test_wf_legal_though_odd : (Instr.pwmInit 0 0 0 0 0).wf = true ∧ (Instr.ledCycle 3 3 0).wf = true := by decide

/-! ## The parameters: 00_scope.md R6 (at most 32, `DW = YW`) and R7 (the bounds of the counts) -/

theorem test_parameters : (∀ w ∈ [Config.TW, Config.MW, Config.XW, Config.YW, Config.DW, Config.PW, Config.IW], w ≤ 32) ∧
    Config.DW = Config.YW ∧ (∀ n ∈ [Config.NCH, Config.NTBL, Config.NLED], 1 ≤ n ∧ n ≤ 256) ∧ 1 ≤ Config.CAP ∧
    Config.CAP < 65536 := by decide

/-! ## Decoding: the words of 95_test_vectors.md V50 and V51 -/

theorem test_decode_pwmInit :
    decode 0x100000000001000003E80000001900000064#144 = .ok (.pwmInit 0 0x01 1000 25 100) := by decide
theorem test_decode_pwmPoll : decode 0x110300000000000000000000000000000000#144 = .ok (.pwmPoll 3) := by decide
theorem test_decode_pwmSetDuty : decode 0x120000000064000000000000000000000000#144 = .ok (.pwmSetDuty 0 100) := by decide
theorem test_decode_pwmSetPeriod :
    decode 0x1300000007D0000000000000000000000000#144 = .ok (.pwmSetPeriod 0 2000) := by decide
theorem test_decode_tblInit : decode 0x200100000000000000000000000000000000#144 = .ok (.tblInit 1) := by decide
theorem test_decode_tblPush : decode 0x21000000014D0000001E0000000000000000#144 = .ok (.tblPush 0 333 30) := by decide
theorem test_decode_tblMirror : decode 0x220000000000000000000000000000000000#144 = .ok (.tblMirror 0) := by decide
theorem test_decode_tblNplicate : decode 0x230100000001000000000000000000000000#144 = .ok (.tblNplicate 1 1) := by decide
theorem test_decode_tblInterp : decode 0x240000000190000000000000000000000000#144 = .ok (.tblInterp 0 400) := by decide
theorem test_decode_tblPop : decode 0x250100000000000000000000000000000000#144 = .ok (.tblPop 1) := by decide
theorem test_decode_ledInit :
    decode 0x300000000002000001000000000000000000#144 = .ok (.ledInit 0 0x02 0x0100) := by decide
theorem test_decode_ledPoll : decode 0x310000000001000000000000000000000000#144 = .ok (.ledPoll 0 1) := by decide
theorem test_decode_ledCycle : decode 0x320000000001000000020000000000000000#144 = .ok (.ledCycle 0 1 2) := by decide

theorem test_decode_reserved : decode 0 = .error .reservedOpcode ∧
    decode 0xFF0000000000000000000000000000000000#144 = .error .reservedOpcode ∧
    decode 0x140000000000000000000000000000000000#144 = .error .reservedOpcode ∧
    decode 0x260000000000000000000000000000000000#144 = .error .reservedOpcode := by decide
theorem test_decode_unit : decode 0x110400000000000000000000000000000000#144 = .error .unitOutOfRange := by decide
theorem test_decode_unused : decode 0x110000000001000000000000000000000000#144 = .error .unusedSlotNonzero ∧
    decode 0x210000000001000000020000000000000001#144 = .error .unusedSlotNonzero := by decide
theorem test_decode_wide : decode 0x100000000100000003E80000001900000064#144 = .error .operandTooWide ∧
    decode 0x120000010000000000000000000000000000#144 = .error .operandTooWide ∧
    decode 0x230000010000000000000000000000000000#144 = .error .operandTooWide := by decide
theorem test_decode_table : decode 0x310000000004000000000000000000000000#144 = .error .tableOutOfRange := by decide
theorem test_decode_odd : decode 0x1000000000FFFFFFFFFF0000FFFF0000FFFF#144 =
    .ok (.pwmInit 0 0xFF 0xFFFFFFFF 0xFFFF 0xFFFF) := by decide

/-! ## Small states -/

/-- The next state, or the reset state where there is none. -/
def after (x : Host.Outcome State Fault Refusal) : State :=
  match x with
  | .next s => s
  | .fault _ => State.reset
  | .refused _ => State.reset

/-- Channel 0 is `k`, `clk_us` reads `us`. -/
def withChan0 (k : Chan) (us : Us) : State :=
  { State.reset with chans := State.reset.chans.set 0 k, clkUs := { now := us, ahead := [] } }

/-- Table 0 is `es`. -/
def withTable0 (es : Table) : State := { State.reset with tables := State.reset.tables.set 0 es }

/-- Sequencer 0 is `q`, table 0 is `es`, the clocks read `ms` and `us`. -/
def withSeq0 (q : Seq) (es : Table) (ms : Ms) (us : Us) : State :=
  { State.reset with
    seqs := State.reset.seqs.set 0 q
    tables := State.reset.tables.set 0 es
    clkMs := { now := ms, ahead := [] }
    clkUs := { now := us, ahead := [] } }

/-- A channel written `(pin, period, duty, full, on, last_sw, keep)`, as the vectors write it. -/
def chan (pin : Pins) (period : Us) (duty full : Duty) (on : Bool) (lastSw keep : Us) : Chan :=
  { pin := pin, period := period, duty := duty, full := full, on := on, lastSw := lastSw, keep := keep }

/-- `n` entries `(i, i)`. -/
def ramp (n : Nat) : Table := (List.range n).map (fun i => { x := BitVec.ofNat 32 i, y := BitVec.ofNat 16 i })

/-- The breathing table of V7. -/
def breathing : Table :=
  [⟨0, 0⟩, ⟨125, 0⟩, ⟨333, 30⟩, ⟨500, 100⟩, ⟨667, 30⟩, ⟨875, 0⟩, ⟨1000, 0⟩]

/-- The blink table of V9. -/
def blink : Table :=
  [⟨0, 100⟩, ⟨100, 100⟩, ⟨100, 0⟩, ⟨250, 0⟩, ⟨250, 100⟩, ⟨350, 100⟩, ⟨350, 0⟩, ⟨1500, 0⟩]

/-- A sequencer after `LED.INIT` with carrier period 10000 (the vectors' choice), at `ms = us = 0`. -/
def freshSeq (g : Gain) (anchor : Ms) : Seq :=
  { ch := chan 0x02 10000 0 100 false 0 0, intensity := g, anchor := anchor, lastUpd := anchor }

/-! ## The toggler: R101 example, V19; V1, V10; V12; V13 -/

theorem test_pwmInit : (after (exec (.pwmInit 0 0x01 1000 25 100) (withChan0 Chan.reset 5000))).chan 0 =
    chan 0x01 1000 25 100 false 5000 0 := by decide
theorem test_pwmInit_leaves_port :
    (after (exec (.pwmInit 0 0x01 1000 25 100) { State.reset with port := 0x01 })).port = 0x01 := by decide
theorem test_pwmPoll_on_to_off :
    let t := after (exec (.pwmPoll 0) { withChan0 (chan 0x01 1000 25 100 true 0 250) 260 with port := 0x01 })
    t.chan 0 = chan 0x01 1000 25 100 false 260 750 ∧ t.port = 0x00 ∧ t.drive = .clear 0x01 := by decide
theorem test_pwmPoll_wraps :
    (after (exec (.pwmPoll 0) (withChan0 (chan 0x01 1000 25 100 true 0xFFFFFF00 250) 0x10))).chan 0 =
      chan 0x01 1000 25 100 false 0x10 750 ∧
    (after (exec (.pwmPoll 0) (withChan0 (chan 0x01 1000 25 100 true 0xFFFFFFF0 250) 0xFFFFFFF5))).chan 0 =
      chan 0x01 1000 25 100 true 0xFFFFFFF0 250 := by decide
theorem test_pwmSetDuty :
    (after (exec (.pwmSetDuty 0 0) (withChan0 (chan 0x01 1000 25 100 true 0 250) 7))).chan 0 =
      chan 0x01 1000 0 100 true 0 250 := by decide
theorem test_pwmSetPeriod :
    (after (exec (.pwmSetPeriod 0 2000) (withChan0 (chan 0x01 1000 25 100 true 0 250) 7))).chan 0 =
      chan 0x01 2000 25 100 true 0 250 := by decide
/-- V2, the row that needs the exact product, and the sum that is one short. -/
theorem test_holds : (chan 1 3000000000 50 100 false 0 0).holdOn = 1500000000 ∧
    (chan 1 999 50 100 false 0 0).holdOn = 499 ∧ (chan 1 999 50 100 false 0 0).holdOff = 499 := by decide
/-- V15: `period = MAXT` has no special case. -/
theorem test_period_max : (after (exec (.pwmPoll 0) (withChan0 (chan 1 0xFFFFFFFF 0 100 false 0 0xFFFFFFFF)
    0xFFFFFFFF))).chan 0 = chan 1 0xFFFFFFFF 0 100 false 0xFFFFFFFF 0xFFFFFFFF := by decide

/-! ## The tables: V28; V24; V7, V27; V8, V27; V21, V22; P3; V25 -/

theorem test_tblInit : (after (exec (.tblInit 0) (withTable0 breathing))).table 0 = [] := by decide
theorem test_tblPush : (after (exec (.tblPush 0 500 100) (withTable0 [⟨0, 0⟩]))).table 0 = [⟨0, 0⟩, ⟨500, 100⟩] := by
  decide
theorem test_tblPush_full : let t := after (exec (.tblPush 0 17 17) (withTable0 (ramp 16)))
    t.table 0 = ramp 16 ∧ t.resp = some { status := .capacityExceeded, res0 := 0, res1 := 0 } := by decide
theorem test_tblMirror : (after (exec (.tblMirror 0) (withTable0 (breathing.take 4)))).table 0 = breathing := by decide
theorem test_tblMirror_wraps : (after (exec (.tblMirror 0) (withTable0 [⟨0, 1⟩, ⟨0x80000000, 2⟩]))).table 0 =
    [⟨0, 1⟩, ⟨0x80000000, 2⟩, ⟨0, 1⟩] := by decide
theorem test_tblNplicate : (after (exec (.tblNplicate 0 2) (withTable0 (blink.take 4)))).table 0 =
    [⟨0, 100⟩, ⟨100, 100⟩, ⟨100, 0⟩, ⟨250, 0⟩, ⟨250, 100⟩, ⟨350, 100⟩, ⟨350, 0⟩, ⟨500, 0⟩, ⟨500, 100⟩, ⟨600, 100⟩,
      ⟨600, 0⟩, ⟨750, 0⟩] := by decide
theorem test_tblNplicate_wraps :
    ((after (exec (.tblNplicate 0 1) (withTable0 [⟨0, 0⟩, ⟨0x60000000, 7⟩, ⟨0xC0000000, 9⟩]))).table 0).drop 3 =
      [⟨0xC0000000, 0⟩, ⟨0x20000000, 7⟩, ⟨0x80000000, 9⟩] := by decide
theorem test_tblInterp : (after (exec (.tblInterp 0 600) (withTable0 breathing))).resp =
    some { status := .ok, res0 := 59, res1 := 0 } := by decide
theorem test_tblInterp_table : [60, 125, 200, 333, 400, 499, 500, 600, 667, 800, 999, 1000].map (Table.lookup breathing) =
    [0, 0, 10, 30, 58, 99, 100, 59, 30, 11, 0, 0].map Lookup.value ∧
    [0, 1, 2, 3].map (Table.lookup [⟨0, 100⟩, ⟨3, 0⟩]) = [100, 67, 34, 0].map Lookup.value := by decide
theorem test_tblPop : let t := after (exec (.tblPop 0) (withTable0 [⟨0, 0⟩, ⟨500, 100⟩]))
    t.table 0 = [⟨0, 0⟩] ∧ t.resp = some { status := .ok, res0 := 500, res1 := 100 } := by decide
theorem test_response_word : (Response.mk .ok 0x1F4 0).word = 0x00000001F400000000#72 ∧
    (Response.mk .emptyTable 0 0).word = 0x020000000000000000#72 := by decide

/-! ## The sequencers: R151 example; V31, V32; V35; V36 -/

theorem test_ledInit : let t := after (exec (.ledInit 0 0x02 0x0100) (withSeq0 Seq.reset [] 7 7300))
    t.seq 0 = { ch := chan 0x02 Config.LED_CARRIER_PERIOD 0 100 false 7300 0, intensity := 0x0100, anchor := 7,
                lastUpd := 7 } := rfl
theorem test_ledPoll_half : (after (exec (.ledPoll 0 0) (withSeq0
    { ch := chan 0x04 10000 0 100 false 1049000 10000, intensity := 0x0080, anchor := 1000, lastUpd := 1000 }
    breathing 1400 1400000))).seq 0 =
    { ch := chan 0x04 10000 29 100 true 1400000 2900, intensity := 0x0080, anchor := 1000, lastUpd := 1400 } := by decide
theorem test_ledPoll_wraps : (after (exec (.ledPoll 0 0) (withSeq0 (freshSeq 0x0100 0xFFFFFF00) breathing 0x100 5000))).seq 0
    = { ch := chan 0x02 10000 95 100 true 5000 9500, intensity := 0x0100, anchor := 0xFFFFFF00, lastUpd := 0x100 } := by
  decide
/-- V30, last row: the anchor advances by two whole periods. -/
theorem test_catchUp : catchUp 1500 3260 3260 0 = 3000 ∧ (freshSeq 0x0100 0).caughtUp 1500 3260 = 3000 := by decide
theorem test_ledPoll_hangs : let t := after (exec (.ledPoll 0 0) (withSeq0 (freshSeq 0x0100 0) [⟨0, 7⟩] 50 9))
    t.activity = .hung ∧ t.resp = none ∧ t.seq 0 = freshSeq 0x0100 0 := by decide

/-- V36: the samples of `clk_ms` are 100, 100, 100, 1800, 1800, 3100. -/
def cycling : State :=
  { withSeq0 (freshSeq 0x0100 0) blink 100 100000 with
    clkMs := { now := 100, ahead := [0, 0, 1700, 0, 1300] }, clkUs := { now := 100000, ahead := [1700000] } }

theorem test_ledCycle_three_passes :
    let t := after (step (after (step (after (exec (.ledCycle 0 0 2) cycling)))))
    t.seq 0 = { ch := chan 0x02 10000 100 100 true 1800000 10000, intensity := 0x0100, anchor := 1500, lastUpd := 1800 } ∧
    t.port = 0x02 ∧ t.resp = some { status := .ok, res0 := 0, res1 := 0 } := by decide
theorem test_ledCycle_zero : let t := after (exec (.ledCycle 0 0 0) cycling)
    t.resp = some { status := .ok, res0 := 0, res1 := 0 } ∧ t.seq 0 = freshSeq 0x0100 0 := by decide

/-! ## Steps, presets, the assembler -/

theorem test_step_illegal : (after (step { State.reset with cmds := [0] })).resp =
    some { status := .illegalCommand, res0 := 0, res1 := 0 } := by decide
theorem test_step_fetched_word :
    (after (step (State.reset.withFetchWord 144 0x2100000001F4000000640000000000000000))).table 0 = [⟨500, 100⟩] := by decide
theorem test_preset_breathe :
    (after (issue ((mkBreathe 0 8).getD []) State.reset)).table 0 =
      [⟨0, 0⟩, ⟨1, 0⟩, ⟨2, 30⟩, ⟨4, 100⟩, ⟨6, 30⟩, ⟨7, 0⟩, ⟨8, 0⟩] := by decide
theorem test_preset_blink : (after (issue ((mkBlink 0 2 100 150 1000).getD []) State.reset)).table 0 = blink := by decide
/-- V42: the host stops at the first fault. -/
theorem test_preset_too_long :
    (after (issue ((mkBlink 0 5 100 150 1000).getD []) State.reset)).table 0 = blink.take 4 := by decide
/-- R93, R94, R96: `PWM.INIT 0, 0x01, 1000, 25 # c`. -/
theorem test_assemble : (assembleLine ['P', 'W', 'M', '.', 'I', 'N', 'I', 'T', ' ', '0', ',', ' ', '0', 'x', '0', '1', ',',
    ' ', '1', '0', '0', '0', ',', ' ', '2', '5', ' ', '#', ' ', 'c']).map (fun is => is.map encode) =
    some [0x100000000001000003E80000001900000064#144] := by decide

/-! ## Witnesses: for each statement with hypotheses, a case that meets them all -/

theorem witness_wf : (Instr.pwmInit 3 0xFF 0xFFFFFFFF 0xFFFF 0xFFFF).wf = true := by decide
theorem witness_legal_word : decode 0x320300000003FFFFFFFF0000000000000000#144 = .ok (.ledCycle 3 3 0xFFFFFFFF) ∧
    0x320300000003FFFFFFFF0000000000000000#144 &&& Opcode.ledCycle.rowMask = Opcode.ledCycle.rowMatch := by decide
theorem witness_reserved : ∀ o ∈ Opcode.all, o.code ≠ Cmd.op 0x330000000000000000000000000000000000#144 := by decide
theorem witness_unit_pwm : (Cmd.op 0x130400000000000000000000000000000000#144).toNat / 16 = 1 ∧
    Config.NCH ≤ (Cmd.unit 0x130400000000000000000000000000000000#144).toNat := by decide
theorem witness_unit_tbl : (Cmd.op 0x250400000000000000000000000000000000#144).toNat / 16 = 2 ∧
    Config.NTBL ≤ (Cmd.unit 0x250400000000000000000000000000000000#144).toNat := by decide
theorem witness_unit_led : (Cmd.op 0x300400000000000000000000000000000000#144).toNat / 16 = 3 ∧
    Config.NLED ≤ (Cmd.unit 0x300400000000000000000000000000000000#144).toNat := by decide
theorem witness_tbl_operand : Cmd.op 0x320000000004000000000000000000000000#144 = 0x32 ∧
    Config.NTBL ≤ (Cmd.slotA 0x320000000004000000000000000000000000#144).toNat := by decide
theorem witness_unused_slot : Opcode.ledCycle.code = Cmd.op 0x320000000000000000000000000000000001#144 ∧
    ∃ v ∈ (Cmd.slots 0x320000000000000000000000000000000001#144).drop Opcode.ledCycle.widths.length, v ≠ 0 :=
  ⟨by decide, 1, by decide, by decide⟩
theorem witness_wide_operand : Opcode.tblPush.code = Cmd.op 0x210000000000000100000000000000000000#144 ∧
    ∃ p ∈ List.zip (Cmd.slots 0x210000000000000100000000000000000000#144) Opcode.tblPush.widths, 2 ^ p.2 ≤ p.1.toNat :=
  ⟨by decide, (0x10000, 16), by decide, by decide⟩
/-- `TBL.PUSH 3, 0xFFFFFFFF, 0xFFFF`. -/
def pushWord : Cmd := 0x2103FFFFFFFF0000FFFF0000000000000000#144
/-- `LED.POLL 3, 3`. -/
def ledPollWord : Cmd := 0x310300000003000000000000000000000000#144
theorem slots_ok (o : Opcode) (w : Cmd) (h : (o.unusedZero w && o.operandsFit w) = true) :
    (∀ v ∈ (Cmd.slots w).drop o.widths.length, v = 0) ∧ (∀ p ∈ List.zip (Cmd.slots w) o.widths, p.1.toNat < 2 ^ p.2) := by
  simpa only [Opcode.unusedZero, Opcode.operandsFit, Bool.and_eq_true, List.all_eq_true, beq_iff_eq, decide_eq_true_eq]
    using h
theorem witness_all_checks_pass :
    Opcode.tblPush.code = Cmd.op pushWord ∧ (Cmd.unit pushWord).toNat < Opcode.tblPush.unitCount ∧
    (∀ v ∈ (Cmd.slots pushWord).drop Opcode.tblPush.widths.length, v = 0) ∧
    (∀ p ∈ List.zip (Cmd.slots pushWord) Opcode.tblPush.widths, p.1.toNat < 2 ^ p.2) :=
  ⟨by decide, by decide, slots_ok _ _ (by decide)⟩
/-- For the operand check's clause about `tbl`. -/
theorem witness_all_checks_pass_tbl :
    Opcode.ledPoll.code = Cmd.op ledPollWord ∧ (Cmd.unit ledPollWord).toNat < Opcode.ledPoll.unitCount ∧
    (∀ v ∈ (Cmd.slots ledPollWord).drop Opcode.ledPoll.widths.length, v = 0) ∧
    (∀ p ∈ List.zip (Cmd.slots ledPollWord) Opcode.ledPoll.widths, p.1.toNat < 2 ^ p.2) ∧
    (Cmd.slotA ledPollWord).toNat < Config.NTBL :=
  ⟨by decide, by decide, (slots_ok _ _ (by decide)).1, (slots_ok _ _ (by decide)).2, by decide⟩
theorem witness_presents : ({ State.reset with cmds := [0] } : State).presents 0 := by decide
theorem witness_presents_after_pass : ({ State.reset with cmds := [0], env := [.pass, .reset] } : State).presents 0 := by
  decide
theorem witness_illFormed : (Instr.ledPoll 3 4).wf = false := by decide

theorem witness_step_runs : let s : State := { State.reset with cmds := [0x110300000000000000000000000000000000#144] }
    decode 0x110300000000000000000000000000000000#144 = .ok (.pwmPoll 3) ∧ s.activity = .idle ∧
    s.cmds = 0x110300000000000000000000000000000000#144 :: [] ∧ s.env = [] := by decide
theorem witness_step_runs_after_pass : let s : State :=
    { State.reset with cmds := [0x110300000000000000000000000000000000#144], env := [.pass] }
    s.activity = .idle ∧ s.env = .pass :: [] := by decide
theorem witness_idle : State.reset.undisturbed ∧ State.reset.activity = .idle ∧ State.reset.cmds = [] := by decide
theorem witness_clock_lists : (∃ n us m ms, cycling.clkUs.ahead = n :: us ∧ cycling.clkMs.ahead = m :: ms) ∧
    State.reset.clkUs.ahead = [] ∧ State.reset.clkMs.ahead = [] := ⟨⟨_, _, _, _, rfl, rfl⟩, rfl, rfl⟩
theorem witness_port_write : ({ State.reset with env := [.portWrite 0x0F 0x05] } : State).env = .portWrite 0x0F 0x05 :: [] := by
  decide
theorem witness_reset_input : ({ State.reset with env := [.reset], activity := .hung } : State).env = .reset :: [] := by
  decide
theorem witness_inv_kept : (withTable0 (ramp 16)).Inv ∧ step (withTable0 (ramp 16)) = .next (withTable0 (ramp 16)) :=
  ⟨by decide, rfl⟩

theorem witness_instances : isChannel 3 ∧ isTable 3 ∧ isSequencer 3 := by decide
theorem witness_poll_before : let s := withChan0 (chan 1 1000 25 100 true 0 250) 249
    (s.clkUs.now - (s.chan 0).lastSw).toNat < (s.chan 0).keep.toNat := by decide
theorem witness_poll_at_deadline : let s := withChan0 (chan 1 1000 25 100 true 0 250) 250
    (s.chan 0).keep.toNat ≤ (s.clkUs.now - (s.chan 0).lastSw).toNat := by decide
theorem witness_malformed_on : let s := withChan0 (chan 1 1000 101 100 true 0 0) 0
    (s.chan 0).keep.toNat ≤ (s.clkUs.now - (s.chan 0).lastSw).toNat ∧ (s.chan 0).full.toNat < (s.chan 0).duty.toNat ∧
    (s.chan 0).on = true ∧ (s.chan 0).duty ≠ (s.chan 0).full := by decide
theorem witness_malformed_off : let s := withChan0 (chan 1 1000 5 0 false 0 0) 0
    (s.chan 0).keep.toNat ≤ (s.clkUs.now - (s.chan 0).lastSw).toNat ∧ (s.chan 0).full = 0 ∧
    (s.chan 0).on = false ∧ (s.chan 0).duty ≠ 0 := by decide
theorem witness_malformed_zero : let s := withChan0 (chan 1 1000 0 0 true 0 0) 0
    (s.chan 0).keep.toNat ≤ (s.clkUs.now - (s.chan 0).lastSw).toNat ∧ (s.chan 0).full = 0 ∧ (s.chan 0).duty = 0 := by decide
theorem witness_holds : 0 < (chan 1 7 1 3 false 0 0).duty.toNat ∧
    (chan 1 7 1 3 false 0 0).duty.toNat < (chan 1 7 1 3 false 0 0).full.toNat := by decide
theorem witness_duty_zero : let s := withChan0 (chan 1 1000 0 100 true 0 0) 5
    (s.chan 0).duty = 0 ∧ ∃ t, exec (.pwmPoll 0) s = .next t := ⟨by decide, _, rfl⟩
theorem witness_off_at_zero : (State.reset.chan 0).on = false ∧ (State.reset.chan 0).duty = 0 ∧
    step State.reset = .next State.reset := ⟨by decide, by decide, rfl⟩
theorem witness_duty_full : let s := withChan0 (chan 1 1000 100 100 true 0 0) 5
    (s.chan 0).on = true ∧ (s.chan 0).duty = (s.chan 0).full ∧ ∃ t, exec (.pwmPoll 0) s = .next t :=
  ⟨by decide, by decide, _, rfl⟩
theorem witness_led_poll_next : isSequencer 0 ∧ ∃ t, exec (.ledPoll 0 0) (withSeq0 (freshSeq 256 0) breathing 50 0) = .next t :=
  ⟨by decide, _, rfl⟩
theorem witness_toggler_frame : (Instr.pwmSetDuty 0 7).opcode ∈ [Opcode.pwmInit, .pwmPoll, .pwmSetDuty, .pwmSetPeriod] ∧
    ∃ t, exec (.pwmSetDuty 0 7) State.reset = .next t := ⟨by decide, _, rfl⟩

theorem witness_push_fits : (((withTable0 (ramp 15)).table 0).length + 1 ≤ 16) ∧
    16 < ((withTable0 (ramp 16)).table 0).length + 1 := by decide
theorem witness_mirror_fits : let s := withTable0 (ramp 8)
    (s.table 0).getLast? = some ⟨7, 7⟩ ∧ 2 * (s.table 0).length - 1 ≤ 16 := by decide
theorem witness_mirror_full : 16 < 2 * ((withTable0 (ramp 9)).table 0).length - 1 := by decide
theorem witness_palindrome : breathing.head? = some ⟨0, 0⟩ ∧ breathing.getLast? = some ⟨1000, 0⟩ ∧ breathing.sorted ∧
    2 * (1000 : XVal).toNat < 2 ^ 32 ∧ (⟨125, 0⟩ : Breakpoint) ∈ breathing.dropLast := by decide
theorem witness_nplicate_fits : let s := withTable0 (ramp 4)
    (s.table 0).getLast? = some ⟨3, 3⟩ ∧ (s.table 0).length * ((3 : BitVec 16).toNat + 1) ≤ 16 ∧
    16 < (s.table 0).length * ((4 : BitVec 16).toNat + 1) := by decide
theorem witness_nplicate_order : (blink.take 4).getLast? = some ⟨250, 0⟩ ∧ Table.sorted (blink.take 4) ∧
    (3 + 1) * (250 : XVal).toNat < 2 ^ 32 := by decide
theorem witness_capacity : Config.CAP < ((withTable0 (ramp 16)).table 0).length + 1 ∧
    Config.CAP < 2 * ((withTable0 (ramp 9)).table 0).length - 1 ∧
    Config.CAP < ((withTable0 (ramp 9)).table 0).length * ((1 : BitVec 16).toNat + 1) := by decide
theorem witness_empty : let s := withSeq0 (freshSeq 256 0) [] 50 0
    s.table 0 = [] ∧ 50 ≤ (s.clkMs.now - (s.seq 0).lastUpd).toNat := by decide
theorem witness_interp_unsorted : let es : Table := [⟨0, 0⟩, ⟨100, 50⟩, ⟨50, 80⟩, ⟨200, 100⟩]
    es = ([⟨0, 0⟩, ⟨100, 50⟩] : Table) ++ ⟨50, 80⟩ :: ⟨200, 100⟩ :: [] ∧ es.getLast? = some ⟨200, 100⟩ ∧
    (120 : XVal).toNat < (200 : XVal).toNat ∧
    (∀ e ∈ (([⟨0, 0⟩, ⟨100, 50⟩] : Table) ++ ([⟨50, 80⟩] : Table)).tail, e.x.toNat ≤ (120 : XVal).toNat) ∧
    (50 : XVal).toNat ≤ (120 : XVal).toNat := by decide
theorem witness_interp_between : (10 : XVal).toNat ≤ (10 : XVal).toNat ∧ (10 : XVal).toNat < (20 : XVal).toNat := by decide
theorem witness_order : (blink.take 4).head? = some ⟨0, 100⟩ ∧ (3 + 1) * (250 : XVal).toNat < 2 ^ 32 := by decide
theorem witness_node : (blink.take 4) = [⟨0, 100⟩, ⟨100, 100⟩] ++ ⟨100, 0⟩ :: ⟨250, 0⟩ :: [] ∧ Table.sorted (blink.take 4) ∧
    (100 : XVal).toNat < (250 : XVal).toNat := by decide
theorem witness_end : ((withTable0 [⟨10, 5⟩]).table 0).getLast? = some ⟨10, 5⟩ ∧ (10 : XVal).toNat ≤ (10 : XVal).toNat := by
  decide
theorem witness_outside_pair : let es : Table := [⟨100, 0⟩, ⟨50, 10⟩, ⟨200, 20⟩]
    (withTable0 es).table 0 = ⟨100, 0⟩ :: ⟨50, 10⟩ :: [⟨200, 20⟩] ∧ es.getLast? = some ⟨200, 20⟩ ∧
    (20 : XVal).toNat < (200 : XVal).toNat ∧ (20 : XVal).toNat < (50 : XVal).toNat ∧
    (20 : XVal).toNat < (100 : XVal).toNat := by decide
theorem witness_outside_one : (withTable0 [⟨10, 5⟩]).table 0 = [⟨10, 5⟩] ∧ (9 : XVal).toNat < (10 : XVal).toNat := by decide
theorem witness_pop : (withTable0 breathing).table 0 = breathing.dropLast ++ [⟨1000, 0⟩] ∧ (withTable0 []).table 0 = [] := by
  decide
theorem witness_bad_response : exec (.tblPop 0) State.reset = .next (State.reset.raise .emptyTable) ∧
    (Response.mk .emptyTable 0 0).word.extractLsb' 64 8 ≠ 0 := ⟨rfl, by decide⟩
theorem witness_table_frame :
    (Instr.tblInterp 0 600).opcode ∈ [Opcode.tblInit, .tblPush, .tblMirror, .tblNplicate, .tblInterp, .tblPop] ∧
    ∃ t, exec (.tblInterp 0 600) State.reset = .next t := ⟨by decide, _, rfl⟩
theorem witness_no_shrink : ∃ t, exec (.tblMirror 0) (withTable0 breathing) = .next t := ⟨_, rfl⟩

theorem witness_between : let s := withSeq0 (freshSeq 256 0) breathing 49 0
    (s.clkMs.now - (s.seq 0).lastUpd).toNat < 50 := by decide
theorem witness_tick : let s := withSeq0 (freshSeq 256 0) breathing 50 0
    50 ≤ (s.clkMs.now - (s.seq 0).lastUpd).toNat ∧ (s.table 0).getLast? = some ⟨1000, 0⟩ ∧ (1000 : XVal) ≠ 0 := by decide
theorem witness_catchUp : (1500 : XVal) ≠ 0 ∧
    ((3260 : Ms) - (freshSeq 256 0).anchor).toNat / (1500 : XVal).toNat ≤ 2 := by decide
theorem witness_empty_between : let s := withSeq0 (freshSeq 256 0) [] 49 0
    s.table 0 = [] ∧ (s.clkMs.now - (s.seq 0).lastUpd).toNat < 50 := by decide
theorem witness_period_zero : let s := withSeq0 (freshSeq 256 0) [⟨0, 1⟩, ⟨0, 2⟩] 50 0
    50 ≤ (s.clkMs.now - (s.seq 0).lastUpd).toNat ∧ (s.table 0).getLast? = some ⟨0, 2⟩ := by decide
theorem witness_hung : let s : State := { State.reset with activity := .hung }
    s.activity = .hung ∧ s.resp = none ∧ ∃ t, step s = .next t := ⟨rfl, rfl, _, rfl⟩
theorem witness_hung_reset : let s : State := { State.reset with activity := .hung, env := [.reset] }
    s.activity = .hung ∧ s.resp = none ∧ ∃ t, step s = .next t := ⟨rfl, rfl, _, rfl⟩
/-- A second sample 3000 after the first, with a target of 3000, and one 2999 after it. -/
theorem witness_cycle_ends : let s : State := { cycling with clkMs := { now := 100, ahead := [3000] } }
    (s.table 0).getLast? = some ⟨1500, 0⟩ ∧
    ((2 : Ms).toNat * (1500 : XVal).toNat) % 2 ^ 32 ≤ (s.pastMs.clkMs.now - s.clkMs.now).toNat := by decide
theorem witness_cycle_goes_on : let s : State := { cycling with clkMs := { now := 100, ahead := [2999] } }
    (s.table 0).getLast? = some ⟨1500, 0⟩ ∧
    (s.pastMs.clkMs.now - s.clkMs.now).toNat < ((2 : Ms).toNat * (1500 : XVal).toNat) % 2 ^ 32 := by decide

/-- Inside the loop of `LED.CYCLE`, at the reading `ms` of `clk_ms`. -/
def inLoop (ms : Ms) : State :=
  { withSeq0 (freshSeq 256 0) blink ms 0 with activity := .cycling { d := 0, t := 0, t0 := 100, target := 3000 } }

theorem witness_pass_ends : (inLoop 3100).Inv ∧ (inLoop 3100).env = [] ∧
    (inLoop 3100).activity = .cycling { d := 0, t := 0, t0 := 100, target := 3000 } ∧
    (3000 : Ms).toNat ≤ ((inLoop 3100).clkMs.now - 100).toNat := by decide
theorem witness_pass_goes_on : (inLoop 3099).Inv ∧ ((inLoop 3099).clkMs.now - 100).toNat < (3000 : Ms).toNat ∧
    ∃ t, step (inLoop 3099) = .next t := ⟨by decide, by decide, _, rfl⟩
theorem witness_led_frame : (Instr.ledPoll 0 0).opcode ∈ [Opcode.ledInit, .ledPoll, .ledCycle] ∧
    ∃ t, exec (.ledPoll 0 0) (withSeq0 (freshSeq 256 0) breathing 50 0) = .next t := ⟨by decide, _, rfl⟩
theorem witness_fault : exec (.tblPop 0) State.reset = .next (State.reset.answered .emptyTable 0 0) ∧
    Status.emptyTable ≠ .ok := ⟨rfl, by decide⟩
theorem witness_register_write : ∃ t, exec (.pwmSetDuty 0 7) State.reset = .next t ∧
    (t.chan 0).duty ≠ (State.reset.chan 0).duty := ⟨_, rfl, by decide⟩
theorem witness_register_write_init : ∃ t, exec (.pwmInit 0 1 2 3 4) State.reset = .next t ∧
    (t.chan 0).pin ≠ (State.reset.chan 0).pin ∧ (t.chan 0).period ≠ (State.reset.chan 0).period := ⟨_, rfl, by decide⟩
theorem witness_register_write_poll : ∃ t, exec (.pwmPoll 0) (withChan0 (chan 1 1000 25 100 true 0 250) 260) = .next t ∧
    (t.chan 0).on ≠ ((withChan0 (chan 1 1000 25 100 true 0 250) 260).chan 0).on := ⟨_, rfl, by decide⟩
theorem witness_register_write_led : ∃ t, exec (.ledInit 0 1 7) State.reset = .next t ∧
    (t.seq 0).intensity ≠ (State.reset.seq 0).intensity := ⟨_, rfl, by decide⟩
theorem witness_register_write_poll_led : ∃ t, exec (.ledPoll 0 0) (withSeq0 (freshSeq 256 0) breathing 50 0) = .next t ∧
    t.seq 0 ≠ (withSeq0 (freshSeq 256 0) breathing 50 0).seq 0 := ⟨_, rfl, by decide⟩
theorem witness_register_write_table : ∃ t, exec (.tblPush 0 1 2) State.reset = .next t ∧ t.table 0 ≠ State.reset.table 0 :=
  ⟨_, rfl, by decide⟩

/-- Channel 0 on pin 0, channel 1 on pin 1, and another agent about to write pins 2 to 7. -/
def owned : State :=
  { State.reset with
    chans := (State.reset.chans.set 0 (chan 0x01 1000 0 100 true 0 0)).set 1 (chan 0x02 1000 100 100 true 0 0)
    env := [.portWrite 0xFC 0x54] }

theorem witness_sole_owner : owned.soleOwner (.standalone 0) ∧ owned.soleOwner (.standalone 1) ∧
    owned.soleOwner (.embedded 3) ∧ (owned.chan 0).duty = 0 ∧ (owned.chan 1).duty = (owned.chan 1).full ∧
    ∃ t, step owned = .next t := ⟨by decide, by decide, by decide, by decide, by decide, _, rfl⟩
/-- Overlapping masks, and a write that covers the pin. -/
theorem test_not_sole_owner :
    ¬ ({ owned with chans := owned.chans.set 2 (chan 0x03 0 0 0 false 0 0) } : State).soleOwner (.standalone 0) ∧
    ¬ ({ owned with env := [.pass, .portWrite 0x01 0x00] } : State).soleOwner (.standalone 0) := by decide
/-- A poll by the owner, ON to OFF. -/
theorem witness_owner_polls : let s : State := { owned with env := [], port := 0xFF, cmds := [encode (.pwmPoll 0)] }
    s.soleOwner (.standalone 0) ∧ (after (step s)).port = 0xFE := by decide
theorem witness_breathe_period : (1000 : Nat) < 2 ^ 32 := by decide
theorem witness_blink : (1 : Nat) ≤ 4 ∧ 4 * 4 ≤ 16 ∧ 4 * (100 + 150) + 1000 < 2 ^ 32 := by decide

end Sys2Proof.Tests
end

namespace Sys2Proof.Machine

/-! ## What one command can do

Each command runs on the register file its `unit` field names or is illegal. The three relations below say what a command
makes of the one channel, table or sequencer it writes; `exec_chan`, `exec_table` and `exec_seq` say that it writes no
other. -/

/-- What a toggler command makes of its channel (40_pwm_toggler.md R101, R105, R107, R108). -/
inductive ChanWrite : Instr → Chan → Chan → Prop
  | init (c : Unit8) (pin : Pins) (period : Us) (duty full : Duty) (T : Us) (k : Chan) :
      ChanWrite (.pwmInit c pin period duty full) k (Chan.init pin period duty full T)
  | poll (c : Unit8) (T a : Us) (k : Chan) : ChanWrite (.pwmPoll c) k (k.polled T a)
  | setDuty (c : Unit8) (duty : Duty) (k : Chan) : ChanWrite (.pwmSetDuty c duty) k { k with duty := duty }
  | setPeriod (c : Unit8) (period : Us) (k : Chan) : ChanWrite (.pwmSetPeriod c period) k { k with period := period }

/-- What a builder makes of its table (41_table.md R121, R123, R126, R130, R141), which it does only where the result
fits the capacity (R35). -/
inductive TableWrite : Instr → Table → Table → Prop
  | init (t : Unit8) (es : Table) : TableWrite (.tblInit t) es []
  | push (t : Unit8) (x : XVal) (y : YVal) (es : Table) (room : es.length + 1 ≤ Config.CAP) :
      TableWrite (.tblPush t x y) es (es ++ [{ x := x, y := y }])
  | mirror (t : Unit8) (P : XVal) (es : Table) (room : 2 * es.length - 1 ≤ Config.CAP) :
      TableWrite (.tblMirror t) es (es.mirrored P)
  | nplicate (t : Unit8) (n : Repeat) (P : XVal) (es : Table) (room : es.length * (n.toNat + 1) ≤ Config.CAP) :
      TableWrite (.tblNplicate t n) es (es.nplicated P n.toNat)
  | pop (t : Unit8) (es : Table) : TableWrite (.tblPop t) es es.dropLast

/-- What a sequencer command makes of its sequencer: `LED.INIT` replaces it, the two others leave what R159 says. -/
inductive SeqWrite : Instr → Seq → Seq → Prop
  | init (d : Unit8) (pin : Pins) (g : Gain) (q r : Seq) : SeqWrite (.ledInit d pin g) q r
  | poll (d tbl : Unit8) (q r : Seq) (config : q.sameConfig r) : SeqWrite (.ledPoll d tbl) q r
  | cycle (d tbl : Unit8) (N : Ms) (q r : Seq) (config : q.sameConfig r) : SeqWrite (.ledCycle d tbl N) q r

/-- The toggler's group of commands (30_encoding.md R86). -/
abbrev togglerOpcodes : List Opcode := [.pwmInit, .pwmPoll, .pwmSetDuty, .pwmSetPeriod]

/-- The tables' group. -/
abbrev tableOpcodes : List Opcode := [.tblInit, .tblPush, .tblMirror, .tblNplicate, .tblInterp, .tblPop]

/-- The sequencers' group. -/
abbrev sequencerOpcodes : List Opcode := [.ledInit, .ledPoll, .ledCycle]

theorem opcode_group (o : Opcode) : o ∈ togglerOpcodes ∨ o ∈ tableOpcodes ∨ o ∈ sequencerOpcodes := by
  cases o <;> decide

section Inversion

variable {i : Instr} {s t : State}

theorem chan_of_chans_eq (h : t.chans = s.chans) (c : Fin Config.NCH) : t.chan c = s.chan c :=
  congrArg (Vector.get · c) h

theorem table_of_tables_eq (h : t.tables = s.tables) (k : Fin Config.NTBL) : t.table k = s.table k :=
  congrArg (Vector.get · k) h

theorem seq_of_seqs_eq (h : t.seqs = s.seqs) (d : Fin Config.NLED) : t.seq d = s.seq d :=
  congrArg (Vector.get · d) h

theorem onInstance_next {n : Nat} {u : Unit8} {f : Fin n → State} (h : onInstance n u s f = .next t) :
    t = s.raise .illegalCommand ∨ ∃ k : Fin n, k.val = u.toNat ∧ t = f k := by
  obtain e | ⟨k, hk, e⟩ := onInstance_cases u s f
  · exact .inl (Host.Outcome.next.inj (h.symm.trans e))
  · exact .inr ⟨k, hk, Host.Outcome.next.inj (h.symm.trans e)⟩

/-! ### The toggler -/

/-- What no toggler command writes, and that it ends at once. -/
structure TogglerFrame (s t : State) : Prop where
  tables : t.tables = s.tables
  seqs : t.seqs = s.seqs
  clkMs : t.clkMs = s.clkMs
  inputs : s.sameInputs t
  idle : t.activity = .idle

theorem togglerCommand_frame (hi : i.opcode ∈ togglerOpcodes) (h : exec i s = .next t) : TogglerFrame s t := by
  cases i with
  | pwmInit | pwmPoll | pwmSetDuty | pwmSetPeriod =>
    obtain rfl | ⟨k, -, rfl⟩ := onInstance_next h <;> exact ⟨rfl, rfl, rfl, ⟨rfl, rfl⟩, rfl⟩
  | _ => simp [Instr.opcode, togglerOpcodes] at hi

/-- Only `PWM.POLL` drives the port. -/
theorem togglerCommand_port (hi : i.opcode ∈ togglerOpcodes) (hp : i.opcode ≠ .pwmPoll)
    (h : exec i s = .next t) : t.port = s.port ∧ t.drive = s.drive := by
  cases i with
  | pwmInit | pwmSetDuty | pwmSetPeriod => obtain rfl | ⟨k, -, rfl⟩ := onInstance_next h <;> exact ⟨rfl, rfl⟩
  | pwmPoll => exact absurd rfl hp
  | _ => simp [Instr.opcode, togglerOpcodes] at hi

/-- The two write commands sample no clock (R42). -/
theorem writeCommand_clkUs (hi : i.opcode ∈ [Opcode.pwmSetDuty, .pwmSetPeriod]) (h : exec i s = .next t) :
    t.clkUs = s.clkUs ∧ t.draws = s.draws := by
  cases i with
  | pwmSetDuty | pwmSetPeriod => obtain rfl | ⟨k, -, rfl⟩ := onInstance_next h <;> exact ⟨rfl, rfl⟩
  | _ => simp [Instr.opcode] at hi

/-- A toggler command writes the channel its `unit` names, by its rule, or none. -/
theorem togglerCommand_chans (hi : i.opcode ∈ togglerOpcodes) (h : exec i s = .next t) :
    t.chans = s.chans ∨
    ∃ c k, c.val = i.unit.toNat ∧ ChanWrite i (s.chan c) k ∧ t.chans = (s.setChan c k).chans := by
  cases i with
  | pwmInit | pwmPoll | pwmSetDuty | pwmSetPeriod =>
    obtain rfl | ⟨c, hc, rfl⟩ := onInstance_next h
    · exact .inl rfl
    · exact .inr ⟨c, _, hc, by constructor, rfl⟩
  | _ => simp [Instr.opcode, togglerOpcodes] at hi

/-! ### The tables -/

/-- How a table command can end: answered with no table written, or with the table its `unit` names written by its
rule. -/
inductive TableOutcome (i : Instr) (s : State) : State → Prop
  | answered (n : Nat) (st : Status) (r0 r1 : Slot) :
      TableOutcome i s (({ s with draws := n } : State).respond st r0 r1)
  | built (k : Fin Config.NTBL) (es : Table) (r0 r1 : Slot) (unit : k.val = i.unit.toNat)
      (rule : TableWrite i (s.table k) es) : TableOutcome i s ((s.setTable k es).respond .ok r0 r1)

theorem onTable_outcome {u : Unit8} {f : Fin Config.NTBL → State} (h : onInstance Config.NTBL u s f = .next t)
    (hf : ∀ k, k.val = u.toNat → TableOutcome i s (f k)) : TableOutcome i s t := by
  obtain rfl | ⟨k, hk, rfl⟩ := onInstance_next h
  · exact .answered _ _ _ _
  · exact hf k hk

theorem tableCommand_outcome (hi : i.opcode ∈ tableOpcodes) (h : exec i s = .next t) : TableOutcome i s t := by
  cases i with
  | tblInit u => exact onTable_outcome h fun k hk => .built k _ _ _ hk (.init u _)
  | tblPush u x y =>
    refine onTable_outcome h fun k hk => ?_
    split
    · exact .answered _ _ _ _
    · exact .built k _ _ _ hk (.push u x y _ (by omega))
  | tblMirror u =>
    refine onTable_outcome h fun k hk => ?_
    split
    · exact .answered _ _ _ _
    · split
      · exact .answered _ _ _ _
      · exact .built k _ _ _ hk (.mirror u _ _ (by omega))
  | tblNplicate u n =>
    refine onTable_outcome h fun k hk => ?_
    split
    · exact .answered _ _ _ _
    · split
      · exact .answered _ _ _ _
      · exact .built k _ _ _ hk (.nplicate u n _ _ (by omega))
  | tblInterp u x =>
    refine onTable_outcome h fun k hk => ?_
    split <;> exact .answered _ _ _ _
  | tblPop u =>
    refine onTable_outcome h fun k hk => ?_
    split
    · exact .answered _ _ _ _
    · exact .built k _ _ _ hk (.pop u _)
  | _ => simp [Instr.opcode, tableOpcodes] at hi

/-- What no table command writes, and that it ends at once. -/
structure TableFrame (s t : State) : Prop where
  chans : t.chans = s.chans
  seqs : t.seqs = s.seqs
  port : t.port = s.port
  drive : t.drive = s.drive
  clocks : s.sameClocks t
  inputs : s.sameInputs t
  idle : t.activity = .idle

theorem tableCommand_frame (hi : i.opcode ∈ tableOpcodes) (h : exec i s = .next t) : TableFrame s t := by
  obtain ⟨n, st, r0, r1⟩ | ⟨k, es, r0, r1, -, -⟩ := tableCommand_outcome hi h <;>
    exact ⟨rfl, rfl, rfl, rfl, ⟨rfl, rfl⟩, ⟨rfl, rfl⟩, rfl⟩

/-! ### The sequencers -/

/-- `LED.INIT` is illegal, or samples both clocks and replaces the sequencer its `unit` names. -/
theorem execLedInit_next {d : Unit8} {pin : Pins} {g : Gain} (h : execLedInit d pin g s = .next t) :
    t = s.raise .illegalCommand ∨ ∃ e q, e.val = d.toNat ∧ t = (s.sampledMs.sampledUs.setSeq e q).done := by
  obtain hill | ⟨e, he, ht⟩ := onInstance_next h
  · exact .inl hill
  · exact .inr ⟨e, _, he, ht⟩

theorem execLedPoll_next {d tbl : Unit8} (h : execLedPoll d tbl s = .next t) :
    (∃ st, t = s.raise st) ∨ ∃ e k, e.val = d.toNat ∧ t = s.ledPollBody e k State.done := by
  obtain rfl | ⟨e, he, ht⟩ := onInstance_next h
  · exact .inl ⟨_, rfl⟩
  · split at ht
    · exact .inl ⟨_, ht⟩
    · exact .inr ⟨e, _, he, ht⟩

/-- `LED.CYCLE` faults, or makes the first pass of its loop on a table with an entry. -/
theorem execLedCycle_next {d tbl : Unit8} {N : Ms} (h : execLedCycle d tbl N s = .next t) :
    (∃ st, t = s.raise st) ∨ ∃ (j : CycleJob) (last : Breakpoint), j.d.val = d.toNat ∧
      (s.table j.t).getLast? = some last ∧ j.target = cycleTarget N last.x ∧ t = s.sampledMs.cyclePass j := by
  obtain rfl | ⟨e, he, ht⟩ := onInstance_next h
  · exact .inl ⟨_, rfl⟩
  · split at ht
    · exact .inl ⟨_, ht⟩
    · split at ht
      · exact .inl ⟨_, ht⟩
      · next hl => exact .inr ⟨_, _, he, hl, rfl, ht⟩

theorem sameConfig_of_eq {q r : Seq} (h : r = q) : q.sameConfig r := by
  subst h; exact ⟨rfl, rfl, rfl, rfl⟩

/-- What a poll of sequencer `d` leaves as it was (R37, R153, R159). -/
structure SeqPollFrame (d : Fin Config.NLED) (s t : State) : Prop where
  chans : t.chans = s.chans
  tables : t.tables = s.tables
  inputs : s.sameInputs t
  others : ∀ e, e ≠ d → t.seq e = s.seq e
  config : (s.seq d).sameConfig (t.seq d)

theorem SeqPollFrame.trans {d : Fin Config.NLED} {u : State} (h : SeqPollFrame d s t) (g : SeqPollFrame d t u) :
    SeqPollFrame d s u := by
  obtain ⟨hc, ht, ⟨hcmd, henv⟩, ho, hi, hp, hper, hf⟩ := h
  obtain ⟨gc, gt, ⟨gcmd, genv⟩, go, gi, gp, gper, gf⟩ := g
  exact ⟨gc.trans hc, gt.trans ht, ⟨gcmd.trans hcmd, genv.trans henv⟩, fun e he => (go e he).trans (ho e he),
    gi.trans hi, gp.trans hp, gper.trans hper, gf.trans hf⟩

/-- An operation that writes neither register, table nor input. -/
theorem SeqPollFrame.of_eq (d : Fin Config.NLED) (hc : t.chans = s.chans) (ht : t.tables = s.tables)
    (hq : t.seqs = s.seqs) (hi : s.sameInputs t) : SeqPollFrame d s t :=
  ⟨hc, ht, hi, fun e _ => seq_of_seqs_eq hq e, sameConfig_of_eq (seq_of_seqs_eq hq d)⟩

theorem setSeq_pollFrame (s : State) {d : Fin Config.NLED} {q : Seq} (h : (s.seq d).sameConfig q) :
    SeqPollFrame d s (s.setSeq d q) :=
  ⟨rfl, rfl, ⟨rfl, rfl⟩, fun e he => seq_setSeq_ne s d e q he, by simpa using h⟩

theorem pollEmbedded_pollFrame (s : State) (d : Fin Config.NLED) : SeqPollFrame d s (s.pollEmbedded d) :=
  ⟨rfl, rfl, ⟨rfl, rfl⟩, fun e he => pollEmbedded_seq_ne s d e he, by simp [Seq.sameConfig]⟩

theorem sampledMs_pollFrame (s : State) (d : Fin Config.NLED) : SeqPollFrame d s s.sampledMs :=
  .of_eq d rfl rfl rfl ⟨rfl, rfl⟩

/-- The end of a poll, `go`, is to write no register either. -/
theorem ledPollBody_pollFrame (s : State) (d : Fin Config.NLED) (k : Fin Config.NTBL) {go : State → State}
    (hgo : ∀ u, SeqPollFrame d u (go u)) : SeqPollFrame d s (s.ledPollBody d k go) := by
  have hms := sampledMs_pollFrame s d
  obtain h | ⟨-, h⟩ | ⟨-, h⟩ | ⟨last, -, -, h⟩ := ledPollBody_cases s d k go <;> rw [h]
  · exact (hms.trans (pollEmbedded_pollFrame _ d)).trans (hgo _)
  · exact .of_eq d rfl rfl rfl ⟨rfl, rfl⟩
  · exact .of_eq d rfl rfl rfl ⟨rfl, rfl⟩
  · have htick : SeqPollFrame d s.sampledMs (s.sampledMs.setSeq d _) :=
      setSeq_pollFrame _ (q := (s.seq d).ticked (s.table k) last.x s.clkMs.now (Config.anyYW s.draws))
        ⟨rfl, rfl, rfl, rfl⟩
    exact ((hms.trans htick).trans (pollEmbedded_pollFrame _ d)).trans (hgo _)

theorem cyclePass_pollFrame (s : State) (j : CycleJob) : SeqPollFrame j.d s (s.cyclePass j) := by
  by_cases h : j.target.toNat ≤ (s.clkMs.now - j.t0).toNat
  · rw [cyclePass_of_reached h]; exact .of_eq j.d rfl rfl rfl ⟨rfl, rfl⟩
  · rw [cyclePass_of_not_reached (Nat.not_le.mp h)]
    exact (sampledMs_pollFrame s j.d).trans <| ledPollBody_pollFrame _ j.d j.t fun u =>
      .of_eq j.d rfl rfl rfl ⟨rfl, rfl⟩

/-- `LED.POLL` and `LED.CYCLE` fault, or do a poll's writes to the sequencer their `unit` names. -/
theorem pollCommand_pollFrame (hi : i.opcode ∈ [Opcode.ledPoll, .ledCycle]) (h : exec i s = .next t) :
    (∃ st, t = s.raise st) ∨ ∃ d, d.val = i.unit.toNat ∧ SeqPollFrame d s t := by
  cases i with
  | ledPoll d tbl =>
    obtain hf | ⟨e, k, he, rfl⟩ := execLedPoll_next h
    · exact .inl hf
    · exact .inr ⟨e, he, ledPollBody_pollFrame s e k fun u => .of_eq e rfl rfl rfl ⟨rfl, rfl⟩⟩
  | ledCycle d tbl N =>
    obtain hf | ⟨j, last, he, -, -, rfl⟩ := execLedCycle_next h
    · exact .inl hf
    · exact .inr ⟨j.d, he, (sampledMs_pollFrame s j.d).trans (cyclePass_pollFrame _ j)⟩
  | _ => simp [Instr.opcode] at hi

/-- What no sequencer command writes. -/
structure SequencerFrame (s t : State) : Prop where
  chans : t.chans = s.chans
  tables : t.tables = s.tables
  inputs : s.sameInputs t

theorem sequencerCommand_frame (hi : i.opcode ∈ sequencerOpcodes) (h : exec i s = .next t) :
    SequencerFrame s t := by
  obtain hinit | hpoll := List.mem_cons.mp hi
  · cases i with
    | ledInit => obtain rfl | ⟨e, q, -, rfl⟩ := execLedInit_next h <;> exact ⟨rfl, rfl, ⟨rfl, rfl⟩⟩
    | _ => cases hinit
  · obtain ⟨st, rfl⟩ | ⟨d, -, hd⟩ := pollCommand_pollFrame hpoll h
    · exact ⟨rfl, rfl, ⟨rfl, rfl⟩⟩
    · exact ⟨hd.chans, hd.tables, hd.inputs⟩

/-! ### Over all commands -/

/-- A command leaves a channel, or its `unit` names it and it writes it by its rule. -/
theorem exec_chan (h : exec i s = .next t) (c : Fin Config.NCH) :
    t.chan c = s.chan c ∨ i.unit.toNat = c.val ∧ ChanWrite i (s.chan c) (t.chan c) := by
  obtain hi | hi | hi := opcode_group i.opcode
  · obtain e | ⟨c', k, hc, hw, e⟩ := togglerCommand_chans hi h
    · exact .inl (chan_of_chans_eq e c)
    · have ht : t.chan c = (s.setChan c' k).chan c := chan_of_chans_eq e c
      by_cases hcc : c = c'
      · subst hcc; rw [ht, chan_setChan_self]; exact .inr ⟨hc.symm, hw⟩
      · exact .inl (ht.trans (chan_setChan_ne s c' c k hcc))
  · exact .inl (chan_of_chans_eq (tableCommand_frame hi h).chans c)
  · exact .inl (chan_of_chans_eq (sequencerCommand_frame hi h).chans c)

/-- A command leaves a table, or its `unit` names it and it builds it by its rule. -/
theorem exec_table (h : exec i s = .next t) (k : Fin Config.NTBL) :
    t.table k = s.table k ∨ i.unit.toNat = k.val ∧ TableWrite i (s.table k) (t.table k) := by
  obtain hi | hi | hi := opcode_group i.opcode
  · exact .inl (table_of_tables_eq (togglerCommand_frame hi h).tables k)
  · obtain ⟨n, st, r0, r1⟩ | ⟨k', es, r0, r1, hk, hw⟩ := tableCommand_outcome hi h
    · exact .inl rfl
    · rw [respond_table]
      by_cases hkk : k = k'
      · subst hkk; rw [table_setTable_self]; exact .inr ⟨hk.symm, hw⟩
      · exact .inl (table_setTable_ne s k' k es hkk)
  · exact .inl (table_of_tables_eq (sequencerCommand_frame hi h).tables k)

/-- A command leaves a sequencer, or its `unit` names it and it writes it by its rule. -/
theorem exec_seq (h : exec i s = .next t) (d : Fin Config.NLED) :
    t.seq d = s.seq d ∨ i.unit.toNat = d.val ∧ SeqWrite i (s.seq d) (t.seq d) := by
  obtain hi | hi | hi := opcode_group i.opcode
  · exact .inl (seq_of_seqs_eq (togglerCommand_frame hi h).seqs d)
  · exact .inl (seq_of_seqs_eq (tableCommand_frame hi h).seqs d)
  · cases i with
    | ledInit u pin g =>
      obtain rfl | ⟨d', q, hd, rfl⟩ := execLedInit_next h
      · exact .inl rfl
      · by_cases hdd : d = d'
        · subst hdd; exact .inr ⟨hd.symm, .init ..⟩
        · exact .inl (seq_setSeq_ne s.sampledMs.sampledUs d' d q hdd)
    | ledPoll | ledCycle =>
      obtain ⟨st, rfl⟩ | ⟨d', hd, hf⟩ := pollCommand_pollFrame (by simp [Instr.opcode]) h
      · exact .inl rfl
      · by_cases hdd : d = d'
        · subst hdd; exact .inr ⟨hd.symm, by constructor; exact hf.config⟩
        · exact .inl (hf.others d hdd)
    | _ => simp [Instr.opcode, sequencerOpcodes] at hi

end Inversion

/-! ## What the writes keep -/

section Writes

variable {i : Instr} {k k' : Chan} {es es' : Table} {q r : Seq}

theorem ChanWrite.pin_full (h : ChanWrite i k k') : i.opcode = .pwmInit ∨ k'.pin = k.pin ∧ k'.full = k.full := by
  cases h with
  | init => exact .inl rfl
  | poll => exact .inr ⟨polled_pin .., polled_full ..⟩
  | setDuty | setPeriod => exact .inr ⟨rfl, rfl⟩

theorem ChanWrite.period (h : ChanWrite i k k') :
    i.opcode ∈ [Opcode.pwmInit, .pwmSetPeriod] ∨ k'.period = k.period := by
  cases h with
  | init | setPeriod => exact .inl (by simp [Instr.opcode])
  | poll => exact .inr (polled_period ..)
  | setDuty => exact .inr rfl

theorem ChanWrite.duty (h : ChanWrite i k k') : i.opcode ∈ [Opcode.pwmInit, .pwmSetDuty] ∨ k'.duty = k.duty := by
  cases h with
  | init | setDuty => exact .inl (by simp [Instr.opcode])
  | poll => exact .inr (polled_duty ..)
  | setPeriod => exact .inr rfl

theorem ChanWrite.on_lastSw_keep (h : ChanWrite i k k') :
    i.opcode ∈ [Opcode.pwmInit, .pwmPoll] ∨ k'.on = k.on ∧ k'.lastSw = k.lastSw ∧ k'.keep = k.keep := by
  cases h with
  | init | poll => exact .inl (by simp [Instr.opcode])
  | setDuty | setPeriod => exact .inr ⟨rfl, rfl, rfl⟩

theorem TableWrite.opcode (h : TableWrite i es es') :
    i.opcode ∈ [Opcode.tblInit, .tblPush, .tblMirror, .tblNplicate, .tblPop] := by
  cases h <;> simp [Instr.opcode]

/-- R35: no builder takes a table past the capacity. -/
theorem TableWrite.length_le (h : TableWrite i es es') (hes : es.length ≤ Config.CAP) : es'.length ≤ Config.CAP := by
  cases h with
  | init => exact Nat.zero_le _
  | push _ _ _ _ room => simpa using room
  | mirror _ _ _ room => rw [mirrored_length]; omega
  | nplicate _ _ _ _ room => simpa using room
  | pop => rw [List.length_dropLast]; omega

/-- R36: the builders but `TBL.INIT` and `TBL.POP` only append. -/
theorem TableWrite.appends (h : TableWrite i es es') (hi : ∀ u, i ≠ .tblPop u ∧ i ≠ .tblInit u) : es <+: es' := by
  cases h with
  | init t => exact absurd rfl (hi t).2
  | push | mirror | nplicate => exact ⟨_, rfl⟩
  | pop t => exact absurd rfl (hi t).1

theorem SeqWrite.opcode (h : SeqWrite i q r) : i.opcode ∈ sequencerOpcodes := by
  cases h <;> simp [Instr.opcode]

theorem SeqWrite.config (h : SeqWrite i q r) : i.opcode = .ledInit ∨ q.sameConfig r := by
  cases h with
  | init => exact .inl rfl
  | poll _ _ _ _ config => exact .inr config
  | cycle _ _ _ _ _ config => exact .inr config

end Writes

/-! ## The invariant -/

section Invariant

variable {i : Instr} {s t : State} {j : CycleJob}

theorem activitySound_of_idle (h : s.activity = .idle) : s.activitySound = true := by
  simp [State.activitySound, h]

theorem activitySound_of_hung (h : s.activity = .hung) (hr : s.resp = none) : s.activitySound = true := by
  simp [State.activitySound, h, hr]

theorem activitySound_cycling_iff (h : s.activity = .cycling j) :
    s.activitySound = true ↔ s.resp = none ∧ ∃ last, (s.table j.t).getLast? = some last ∧ last.x ≠ 0 := by
  cases hl : (s.table j.t).getLast? <;> simp [State.activitySound, h, hl]

/-- The invariant speaks of the tables, the activity and the response only. -/
theorem inv_of_eq (h : s.Inv) (htab : t.tables = s.tables) (hact : t.activity = s.activity) (hresp : t.resp = s.resp) :
    t.Inv := by
  obtain ⟨hfit, hsound⟩ := h
  refine ⟨fun k => ?_, ?_⟩
  · rw [table_of_tables_eq htab k]; exact hfit k
  · simpa only [State.activitySound, hact, hresp, table_of_tables_eq htab] using hsound

theorem tablesFit_of_tables_eq (h : s.tablesFit) (htab : t.tables = s.tables) : t.tablesFit :=
  fun k => by rw [table_of_tables_eq htab k]; exact h k

/-- R35: no command takes a table past the capacity. -/
theorem exec_tablesFit (hs : s.tablesFit) (h : exec i s = .next t) : t.tablesFit := fun k => by
  obtain e | ⟨-, hw⟩ := exec_table h k
  · rw [e]; exact hs k
  · exact hw.length_le (hs k)

/-- A `LedPollBody` whose end leaves the activity sound does so on every path: it faults and is idle, or hangs without a
response, or comes to its end with the tables it began with. -/
theorem ledPollBody_activitySound (s : State) (d : Fin Config.NLED) (k : Fin Config.NTBL) {go : State → State}
    (hgo : ∀ u : State, u.tables = s.tables → (go u).activitySound = true) :
    (s.ledPollBody d k go).activitySound = true := by
  obtain h | ⟨-, h⟩ | ⟨-, h⟩ | ⟨last, -, -, h⟩ := ledPollBody_cases s d k go <;> rw [h]
  · exact hgo _ rfl
  · exact activitySound_of_idle rfl
  · exact activitySound_of_hung rfl rfl
  · exact hgo _ rfl

/-- A pass of `LED.CYCLE` leaves the activity sound where the table has a period that is not 0, or the target is 0, so
that the loop ends at once (R161). -/
theorem cyclePass_activitySound (hj : j.target ≠ 0 → ∃ last, (s.table j.t).getLast? = some last ∧ last.x ≠ 0) :
    (s.cyclePass j).activitySound = true := by
  by_cases h : j.target.toNat ≤ (s.clkMs.now - j.t0).toNat
  · rw [cyclePass_of_reached h]; exact activitySound_of_idle rfl
  · have hlast := hj (by rintro e; simp [e] at h)
    rw [cyclePass_of_not_reached (Nat.not_le.mp h)]
    refine ledPollBody_activitySound _ _ _ fun u hu => (activitySound_cycling_iff rfl).mpr ⟨rfl, ?_⟩
    rwa [busy_table, table_of_tables_eq hu, sampledMs_table]

/-- R160: on a table of period 0 the target is 0. -/
theorem cycleTarget_ne_zero {N : Ms} {P : XVal} (h : cycleTarget N P ≠ 0) : P ≠ 0 := by
  rintro rfl; exact h (by simp [cycleTarget])

theorem exec_activitySound (h : exec i s = .next t) : t.activitySound = true := by
  obtain hi | hi | hi := opcode_group i.opcode
  · exact activitySound_of_idle (togglerCommand_frame hi h).idle
  · exact activitySound_of_idle (tableCommand_frame hi h).idle
  · cases i with
    | ledInit => obtain rfl | ⟨e, q, -, rfl⟩ := execLedInit_next h <;> exact activitySound_of_idle rfl
    | ledPoll =>
      obtain ⟨st, rfl⟩ | ⟨d, k, -, rfl⟩ := execLedPoll_next h
      · exact activitySound_of_idle rfl
      · exact ledPollBody_activitySound s d k fun u _ => activitySound_of_idle rfl
    | ledCycle =>
      obtain ⟨st, rfl⟩ | ⟨j, last, -, hlast, htarget, rfl⟩ := execLedCycle_next h
      · exact activitySound_of_idle rfl
      · exact cyclePass_activitySound fun hj => ⟨last, hlast, cycleTarget_ne_zero (htarget ▸ hj)⟩
    | _ => simp [Instr.opcode, sequencerOpcodes] at hi

/-- A command ends in a state that meets the invariant wherever the tables fit before it. -/
theorem exec_inv (hs : s.tablesFit) (h : exec i s = .next t) : t.Inv := ⟨exec_tablesFit hs h, exec_activitySound h⟩

theorem cyclePass_inv (hs : s.Inv) (h : s.activity = .cycling j) : (s.cyclePass j).Inv := by
  obtain ⟨hfit, hsound⟩ := hs
  obtain ⟨-, hlast⟩ := (activitySound_cycling_iff h).mp hsound
  exact ⟨tablesFit_of_tables_eq hfit (cyclePass_pollFrame s j).tables, cyclePass_activitySound fun _ => hlast⟩

theorem runCommand_inv {w : Cmd} (hs : s.tablesFit) (h : runCommand w s = .next t) : t.Inv := by
  unfold runCommand at h
  split at h
  · cases h; exact ⟨hs, activitySound_of_idle rfl⟩
  · exact exec_inv hs h

/-- Inside the loop of `LED.CYCLE` the block's step is the next pass (log 14). -/
theorem blockStep_of_cycling (h : s.activity = .cycling j) : blockStep s = .next (s.quiet.cyclePass j) := by
  simp [blockStep, h]

/-- What a step of the block can do. -/
theorem blockStep_next (h : blockStep s = .next t) :
    ((s.activity = .hung ∨ s.activity = .idle ∧ s.cmds = []) ∧ t = s.quiet) ∨
    (∃ j, s.activity = .cycling j ∧ t = s.quiet.cyclePass j) ∨
    (s.activity = .idle ∧ ∃ w ws, s.cmds = w :: ws ∧ runCommand w { s.quiet with cmds := ws } = .next t) := by
  cases hact : s.activity with
  | hung => simp only [blockStep, hact] at h; cases h; exact .inl ⟨.inl rfl, rfl⟩
  | cycling j => rw [blockStep_of_cycling hact] at h; cases h; exact .inr (.inl ⟨j, rfl, rfl⟩)
  | idle =>
    cases hc : s.cmds with
    | nil =>
      simp only [blockStep, hact, State.takeCommand, quiet_cmds, hc] at h
      cases h; exact .inl ⟨.inr ⟨rfl, rfl⟩, rfl⟩
    | cons w ws =>
      simp only [blockStep, hact, State.takeCommand, quiet_cmds, hc] at h
      exact .inr (.inr ⟨rfl, w, ws, rfl, h⟩)

/-- What a step can do: the block's own step, the reset input, or another agent's write. -/
theorem step_next (h : step s = .next t) :
    (s.undisturbed ∧ blockStep { s with env := s.env.tail } = .next t) ∨
    (∃ es, s.env = .reset :: es ∧ t = ({ s with env := es } : State).applyReset) ∨
    (∃ m v es, s.env = .portWrite m v :: es ∧ t = ({ s with env := es } : State).quiet.otherAgentWrites m v) := by
  by_cases hu : s.undisturbed
  · rw [step_of_undisturbed hu] at h; exact .inl ⟨hu, h⟩
  · unfold step at h
    split at h
    · next henv => exact absurd (.inl henv) hu
    · next henv => exact absurd (.inr (by simp [henv])) hu
    · next es henv => cases h; exact .inr (.inl ⟨es, henv, rfl⟩)
    · next m v es henv => cases h; exact .inr (.inr ⟨m, v, es, henv, rfl⟩)

/-- An undisturbed step inside the loop of `LED.CYCLE` is its next pass (log 14). -/
theorem step_of_cycling (hu : s.undisturbed) (hj : s.activity = .cycling j) : step s = .next (s.turn.cyclePass j) := by
  rw [step_of_undisturbed hu]; exact blockStep_of_cycling hj

theorem blockStep_inv (hs : s.Inv) (h : blockStep s = .next t) : t.Inv := by
  have hquiet : s.quiet.Inv := inv_of_eq hs rfl rfl rfl
  obtain ⟨-, rfl⟩ | ⟨j, hj, rfl⟩ | ⟨-, w, ws, -, hrun⟩ := blockStep_next h
  · exact hquiet
  · exact cyclePass_inv hquiet hj
  · exact runCommand_inv (s := { s.quiet with cmds := ws }) hquiet.1 hrun

theorem reset_inv : State.reset.Inv :=
  ⟨fun k => by simp, activitySound_of_idle rfl⟩

end Invariant

/-! ## The obligations -/

/-- Settles O18: a step is the block's own, which keeps the invariant command by command and pass by pass, or the reset
input, or a write of `PORT`, of which the invariant says nothing. -/
theorem everyStepKeepsTheInvariant : Obligations.EveryStepKeepsTheInvariant := by
  intro s t hs h
  obtain ⟨-, hblock⟩ | ⟨es, -, rfl⟩ | ⟨m, v, es, -, rfl⟩ := step_next h
  · exact blockStep_inv (inv_of_eq (t := { s with env := s.env.tail }) hs rfl rfl rfl) hblock
  · exact inv_of_eq reset_inv rfl rfl rfl
  · exact inv_of_eq hs rfl rfl rfl

/-- Settles O17: a table at reset has no entry and the block is idle. -/
theorem resetMeetsTheInvariant : Obligations.ResetMeetsTheInvariant := reset_inv

/-- Settles O15, by the values `State.reset` gives each register file. -/
theorem resetValuesOfTheRegisters : Obligations.ResetValuesOfTheRegisters :=
  ⟨fun c => reset_chan c, fun k => by rw [reset_table, List.length_nil], fun d => reset_seq d, fun _ => ⟨rfl, rfl⟩⟩

/-- Settles O30, from what a toggler command writes of its channel. -/
theorem togglerCommandsFrame : Obligations.TogglerCommandsFrame := by
  intro i s t hi h
  obtain ⟨htab, hseq, hms, hin, -⟩ := togglerCommand_frame hi h
  refine ⟨fun c hc => (exec_chan h c).resolve_right fun hw => hc hw.1.symm, htab, hseq, hms, hin, fun hinit c => ?_,
    fun hp => togglerCommand_port hi hp h, fun hw => writeCommand_clkUs hw h⟩
  obtain e | ⟨-, hw⟩ := exec_chan h c
  · rw [e]; exact ⟨rfl, rfl⟩
  · exact hw.pin_full.resolve_left hinit

/-- Settles O44: a builder other than the two appends, and every other command leaves the table. -/
theorem onlyPopAndInitShrinkATable : Obligations.OnlyPopAndInitShrinkATable := by
  intro i s t k h hi
  obtain e | ⟨hu, hw⟩ := exec_table h k
  · rw [e]
  · exact hw.appends fun u =>
      ⟨by rintro rfl; exact hi u (.inl rfl) hu, by rintro rfl; exact hi u (.inr rfl) hu⟩

/-- Settles O55, from what a sequencer command writes of its sequencer. -/
theorem sequencerCommandsFrame : Obligations.SequencerCommandsFrame := by
  intro i s t hi h
  obtain ⟨hchans, htab, hin⟩ := sequencerCommand_frame hi h
  refine ⟨hchans, htab, hin, fun d hd => (exec_seq h d).resolve_right fun hw => hd hw.1.symm, fun hinit d => ?_,
    fun hinit => ?_⟩
  · obtain e | ⟨-, hw⟩ := exec_seq h d
    · exact sameConfig_of_eq e
    · exact hw.config.resolve_left hinit
  · cases i with
    | ledInit => obtain rfl | ⟨e, q, -, rfl⟩ := execLedInit_next h <;> exact ⟨rfl, rfl⟩
    | _ => cases hinit

/-- Who writes the registers of a standalone channel (R22, R26, R30). -/
theorem exec_writes_own_chan {i : Instr} {s t : State} (h : exec i s = .next t) (c : Fin Config.NCH) :
    ((t.chan c).pin ≠ (s.chan c).pin ∨ (t.chan c).full ≠ (s.chan c).full →
      i.opcode = .pwmInit ∧ i.unit.toNat = c.val) ∧
    ((t.chan c).period ≠ (s.chan c).period → i.opcode ∈ [Opcode.pwmInit, .pwmSetPeriod] ∧ i.unit.toNat = c.val) ∧
    ((t.chan c).duty ≠ (s.chan c).duty → i.opcode ∈ [Opcode.pwmInit, .pwmSetDuty] ∧ i.unit.toNat = c.val) ∧
    ((t.chan c).on ≠ (s.chan c).on ∨ (t.chan c).lastSw ≠ (s.chan c).lastSw ∨ (t.chan c).keep ≠ (s.chan c).keep →
      i.opcode ∈ [Opcode.pwmInit, .pwmPoll] ∧ i.unit.toNat = c.val) := by
  obtain e | ⟨hu, hw⟩ := exec_chan h c
  · simp [e]
  · refine ⟨fun hne => ⟨hw.pin_full.resolve_right ?_, hu⟩, fun hne => ⟨hw.period.resolve_right hne, hu⟩,
      fun hne => ⟨hw.duty.resolve_right hne, hu⟩, fun hne => ⟨hw.on_lastSw_keep.resolve_right ?_, hu⟩⟩
    · rintro ⟨hpin, hfull⟩; exact hne.elim (· hpin) (· hfull)
    · rintro ⟨hon, hsw, hkeep⟩; exact hne.elim (· hon) (·.elim (· hsw) (· hkeep))

/-- Who writes the registers of a sequencer (R37, R39, R40, R41). -/
theorem exec_writes_own_seq {i : Instr} {s t : State} (h : exec i s = .next t) (d : Fin Config.NLED) :
    (¬ (s.seq d).sameConfig (t.seq d) → i.opcode = .ledInit ∧ i.unit.toNat = d.val) ∧
    (t.seq d ≠ s.seq d → i.opcode ∈ sequencerOpcodes ∧ i.unit.toNat = d.val) := by
  obtain e | ⟨hu, hw⟩ := exec_seq h d
  · exact ⟨fun hne => absurd (sameConfig_of_eq e) hne, fun hne => absurd e hne⟩
  · exact ⟨fun hne => ⟨hw.config.resolve_right hne, hu⟩, fun _ => ⟨hw.opcode, hu⟩⟩

/-- Settles O58, register file by register file. -/
theorem registersAreWrittenByTheirCommandsOnly : Obligations.RegistersAreWrittenByTheirCommandsOnly := by
  refine ⟨fun i s t h => ⟨exec_writes_own_chan h, exec_writes_own_seq h, fun k hk => ?_⟩, fun s t j hj hu h => ?_⟩
  · obtain ⟨hu, hw⟩ := (exec_table h k).resolve_left hk
    exact ⟨hw.opcode, hu⟩
  · rw [step_of_cycling hu hj] at h
    cases h
    obtain ⟨hchans, htab, -, hothers, hconfig⟩ := cyclePass_pollFrame s.turn j
    refine ⟨hchans, htab, fun d => ⟨?_, hothers d⟩⟩
    by_cases hd : d = j.d
    · subst hd; exact hconfig
    · exact sameConfig_of_eq (hothers d hd)

end Sys2Proof.Machine

namespace Sys2Proof.Machine

/-! ## The port is never an input (20_memory.md R64)

`PORT` is written and never read, so a run from `s.withPort p` makes the choices of the run from `s`: every operation
carries "the same but for the port" through, and only the value of the port may come out different. -/

section PortIsNoInput

variable {s : State} {p : Pins}

@[simp] theorem withPort_table (s : State) (p : Pins) (k : Fin Config.NTBL) : (s.withPort p).table k = s.table k := rfl
@[simp] theorem withPort_seq (s : State) (p : Pins) (d : Fin Config.NLED) : (s.withPort p).seq d = s.seq d := rfl

/-- Two runs that end in states which differ in `PORT` only. -/
def sameButPort (o o' : Host.Outcome State Fault Refusal) : Prop :=
  ∃ t q, o = .next t ∧ o' = .next (t.withPort q)

/-- An operation that does not read `PORT`: from states that differ in it only, it leads to states that do. -/
def PortBlind (f : State → State) : Prop := ∀ s p, ∃ q, f (s.withPort p) = (f s).withPort q

/-- Which register file a command runs on is no question of the port, so it is enough that the two runs on it agree. -/
theorem onInstance_sameButPort {n : Nat} {u : Unit8} {f f' : Fin n → State}
    (hf : ∀ k, ∃ q, f' k = (f k).withPort q) : sameButPort (onInstance n u s f) (onInstance n u (s.withPort p) f') := by
  by_cases h : u.toNat < n
  · obtain ⟨q, hq⟩ := hf ⟨u.toNat, h⟩
    exact ⟨_, q, onInstance_of_lt h s f, by rw [onInstance_of_lt h, hq]⟩
  · exact ⟨_, p, onInstance_of_ge (Nat.not_lt.mp h) s f, onInstance_of_ge (Nat.not_lt.mp h) (s.withPort p) f'⟩

/-- The throttle decides on the sequencer, the table and `clk_ms`; the embedded poll after it acts on the port, by the
embedded channel and `clk_us`. -/
theorem ledPollBody_portBlind (d : Fin Config.NLED) (k : Fin Config.NTBL) {go : State → State} (hgo : PortBlind go) :
    PortBlind (·.ledPollBody d k go) := fun s p => by
  simp only [State.ledPollBody, withPort_seq, withPort_table]
  cases (s.seq d).tick (s.table k) s.clkMs.now (Config.anyYW s.draws) with
  | between => exact hgo (s.sampledMs.pollEmbedded d) _
  | empty | hang => exact ⟨p, rfl⟩
  | update q => exact hgo ((s.sampledMs.setSeq d q).pollEmbedded d) _

theorem cyclePass_portBlind (j : CycleJob) : PortBlind (·.cyclePass j) := fun s p => by
  by_cases h : j.target.toNat ≤ (s.clkMs.now - j.t0).toNat
  · simp only [cyclePass_of_reached h, cyclePass_of_reached (s := s.withPort p) h]
    exact ⟨p, rfl⟩
  · have hlt := Nat.not_le.mp h
    simp only [cyclePass_of_not_reached hlt, cyclePass_of_not_reached (s := s.withPort p) hlt]
    exact ledPollBody_portBlind j.d j.t (fun _ r => ⟨r, rfl⟩) s.sampledMs p

theorem exec_sameButPort (i : Instr) (s : State) (p : Pins) : sameButPort (exec i s) (exec i (s.withPort p)) := by
  cases i with
  | pwmInit | pwmSetDuty | pwmSetPeriod | tblInit | ledInit => exact onInstance_sameButPort fun _ => ⟨p, rfl⟩
  | pwmPoll => exact onInstance_sameButPort fun _ => ⟨_, rfl⟩
  | tblPush | tblInterp | tblPop =>
    refine onInstance_sameButPort fun k => ⟨p, ?_⟩
    rw [withPort_table]
    split <;> rfl
  | tblMirror | tblNplicate =>
    refine onInstance_sameButPort fun k => ⟨p, ?_⟩
    rw [withPort_table]
    split
    · rfl
    · split <;> rfl
  | ledPoll =>
    refine onInstance_sameButPort fun d => ?_
    split
    · exact ⟨p, rfl⟩
    · exact ledPollBody_portBlind d _ (fun _ r => ⟨r, rfl⟩) s p
  | ledCycle =>
    refine onInstance_sameButPort fun d => ?_
    simp only [withPort_table]
    split
    · exact ⟨p, rfl⟩
    · split
      · exact ⟨p, rfl⟩
      · exact cyclePass_portBlind _ s.sampledMs p

theorem runCommand_sameButPort (w : Cmd) (s : State) (p : Pins) :
    sameButPort (runCommand w s) (runCommand w (s.withPort p)) := by
  unfold runCommand
  cases decode w with
  | error => exact ⟨_, p, rfl, rfl⟩
  | ok i => exact exec_sameButPort i s p

theorem blockStep_sameButPort (s : State) (p : Pins) : sameButPort (blockStep s) (blockStep (s.withPort p)) := by
  unfold blockStep
  cases s.activity with
  | hung => exact ⟨s.quiet, p, rfl, rfl⟩
  | cycling j =>
    obtain ⟨q, hq⟩ := cyclePass_portBlind j s.quiet p
    exact ⟨_, q, rfl, congrArg _ hq⟩
  | idle =>
    simp only [State.takeCommand, quiet_cmds]
    cases s.cmds with
    | nil => exact ⟨s.quiet, p, rfl, rfl⟩
    | cons w ws => exact runCommand_sameButPort w { s.quiet with cmds := ws } p

/-- The step of any state, by what the environment does before it. -/
theorem step_sameButPort (s : State) (p : Pins) : sameButPort (step s) (step (s.withPort p)) := by
  unfold step
  cases s.env with
  | nil => exact blockStep_sameButPort s p
  | cons e es =>
    cases e with
    | pass => exact blockStep_sameButPort { s with env := es } p
    | reset => exact ⟨_, p, rfl, rfl⟩
    | portWrite m v => exact ⟨_, _, rfl, rfl⟩

end PortIsNoInput

/-- Settles O57, from the two runs side by side. -/
theorem thePortIsNeverAnInput : Obligations.ThePortIsNeverAnInput := step_sameButPort

/-! ## The clocks (20_memory.md R67) -/

section Clocks

variable {w : Nat} {c : ClockIn w}

/-- Where a count is listed, the next reading is past the sampled one by it. -/
theorem advance_of_ahead {n : Nat} {rest : List Nat} (h : c.ahead = n :: rest) (e : Nat) :
    (c.advance e).now.toNat = (c.now.toNat + n) % 2 ^ w ∧ (c.advance e).ahead = rest := by
  simp [ClockIn.advance, h]

/-- Where none is listed, it is past the sampled one by the free value. -/
theorem advance_of_none_ahead (h : c.ahead = []) (e : Nat) :
    (c.advance e).ahead = [] ∧ ∃ n, (c.advance e).now.toNat = (c.now.toNat + n) % 2 ^ w := by
  simp only [ClockIn.advance, h, BitVec.toNat_add, BitVec.toNat_ofNat, Nat.add_mod_mod]
  exact ⟨trivial, e, rfl⟩

theorem advance_sub_now {n : Nat} {rest : List Nat} (h : c.ahead = n :: rest) (e : Nat) :
    ((c.advance e).now - c.now).toNat = n % 2 ^ w := by
  simp only [ClockIn.advance, h, add_sub_cancel_left, BitVec.toNat_ofNat]

end Clocks

/-- Settles O12: an advance adds the elapsed count, and `LED.INIT` stores the reading each clock is advanced from. -/
theorem clocksAdvanceByTheElapsedCount : Obligations.ClocksAdvanceByTheElapsedCount := by
  intro s
  refine ⟨fun _ _ h => advance_of_ahead h _, fun h => advance_of_none_ahead h _, fun _ _ h => advance_of_ahead h _,
    fun h => advance_of_none_ahead h _, fun d hd pin g n m us ms hus hms => ⟨_, onInstance_of_lt hd s _, ?_⟩⟩
  rw [done_seq, seq_setSeq_self]
  exact ⟨advance_sub_now hus _, advance_sub_now hms _⟩

/-! ## What a command does to the port (20_memory.md R63, R65)

A command keeps `PORT` and the mask outputs, or polls one channel: `exec_port` says so once for all commands, and
`step_port` for every step. -/

/-- The channel a command polls, where it polls one (40_pwm_toggler.md R105; 42_led_sequencer.md R153, R160). -/
inductive Polls : Instr → ChanRef → Prop
  | pwmPoll (u : Unit8) (c : Fin Config.NCH) (unit : c.val = u.toNat) : Polls (.pwmPoll u) (.standalone c)
  | ledPoll (u tbl : Unit8) (d : Fin Config.NLED) (unit : d.val = u.toNat) : Polls (.ledPoll u tbl) (.embedded d)
  | ledCycle (u tbl : Unit8) (N : Ms) (d : Fin Config.NLED) (unit : d.val = u.toNat) :
      Polls (.ledCycle u tbl N) (.embedded d)

/-- `PORT` and the mask outputs are as they were. -/
structure PortKept (s t : State) : Prop where
  port : t.port = s.port
  drive : t.drive = s.drive

/-- The port is driven as a poll of the channel `r` drives it. The registers polled are `k`: those of a standalone
channel, and of an embedded one up to the duty that the throttle tick before the poll may have changed. -/
structure PortPolled (r : ChanRef) (s t : State) (k : Chan) (T : Us) : Prop where
  pin : k.pin = (s.chanAt r).pin
  standalone : ∀ c, r = .standalone c → k = s.chan c
  drive : t.drive = k.pollDrive T
  port : t.port = (k.pollDrive T).apply s.port

section PinMasks

variable {a m x : Pins} (p : Pins)

theorem bit_of_disjoint (h : a &&& m = 0) {i : Nat} (hi : i < Config.PW) : a[i] = false ∨ m[i] = false := by
  have hbit : (a &&& m)[i] = false := by rw [h]; exact BitVec.getElem_zero hi
  rwa [BitVec.getElem_and, Bool.and_eq_false_iff] at hbit

/-- A masked set leaves the bits outside its mask. -/
theorem or_and_of_disjoint (h : a &&& m = 0) : (p ||| a) &&& m = p &&& m := by
  ext i hi
  obtain hb | hb := bit_of_disjoint h hi <;> simp [hb]

/-- And so does a masked clear. -/
theorem andNot_and_of_disjoint (h : a &&& m = 0) : (p &&& ~~~a) &&& m = p &&& m := by
  ext i hi
  obtain hb | hb := bit_of_disjoint h hi <;> simp [hb]

theorem or_and_mask (m : Pins) : (p ||| m) &&& m = m := by
  ext i hi
  cases hm : m[i] <;> simp [hm]

theorem andNot_and_mask (m : Pins) : (p &&& ~~~m) &&& m = 0 := by
  ext i hi
  cases hm : m[i] <;> simp [hm]

theorem and_mask_andNot (m : Pins) : p &&& m &&& ~~~p = 0 := by
  ext i hi
  cases hp : p[i] <;> simp [hp]

theorem and_andNot_of_covered (h : x &&& m = m) : p &&& m &&& ~~~x = 0 := by
  rw [← h, BitVec.and_assoc, and_mask_andNot]
  exact BitVec.and_zero

end PinMasks

section PortEffects

variable {i : Instr} {s t : State} {r : ChanRef} {k : Chan} {T : Us}

/-- A poll sets its mask, which takes a duty above 0, or clears it, which takes a duty below `full`, or does neither. -/
theorem pollDrive_cases (k : Chan) (T : Us) :
    k.pollDrive T = .none ∨ (k.pollDrive T = .set k.pin ∧ k.duty ≠ 0) ∨
    (k.pollDrive T = .clear k.pin ∧ k.duty ≠ k.full) := by
  obtain ⟨-, -, h⟩ | ⟨-, -, -, h⟩ | ⟨-, htog, -, h⟩ := polled_cases k T 0
  · exact .inl h
  · exact .inl h
  · cases hon : k.on
    · exact .inr (.inl ⟨by simpa [hon] using h, by simpa [Chan.toggles, hon] using htog⟩)
    · exact .inr (.inr ⟨by simpa [hon] using h, by simpa [Chan.toggles, hon] using htog⟩)

/-- What a poll does to the port depends on the registers and the port it begins with only. -/
theorem PortPolled.of_eq {s' : State} (h : PortPolled r s' t k T) (hc : s'.chans = s.chans) (hq : s'.seqs = s.seqs)
    (hp : s'.port = s.port) : PortPolled r s t k T := by
  obtain ⟨hpin, hk, hd, hport⟩ := h
  have hchan := chan_of_chans_eq hc
  refine ⟨?_, fun c hr => (hk c hr).trans (hchan c), hd, hp ▸ hport⟩
  cases r with
  | standalone c => exact hpin.trans (congrArg Chan.pin (hchan c))
  | embedded d => exact hpin.trans (congrArg (·.ch.pin) (seq_of_seqs_eq hq d))

theorem ledPollBody_port (s : State) (d : Fin Config.NLED) (j : Fin Config.NTBL) {go : State → State}
    (hgo : ∀ u, PortKept u (go u)) :
    PortKept s (s.ledPollBody d j go) ∨ ∃ k T, PortPolled (.embedded d) s (s.ledPollBody d j go) k T := by
  obtain h | ⟨-, h⟩ | ⟨-, h⟩ | ⟨last, -, -, h⟩ := ledPollBody_cases s d j go <;> rw [h]
  · obtain ⟨hport, hdrive⟩ := hgo (s.sampledMs.pollEmbedded d)
    exact .inr ⟨_, _, rfl, nofun, hdrive, hport⟩
  · exact .inl ⟨rfl, rfl⟩
  · exact .inl ⟨rfl, rfl⟩
  · obtain ⟨hport, hdrive⟩ := hgo ((s.sampledMs.setSeq d
      ((s.seq d).ticked (s.table j) last.x s.clkMs.now (Config.anyYW s.draws))).pollEmbedded d)
    exact .inr ⟨_, _, by rw [seq_setSeq_self]; rfl, nofun, hdrive, hport⟩

theorem cyclePass_port (s : State) (j : CycleJob) :
    PortKept s (s.cyclePass j) ∨ ∃ k T, PortPolled (.embedded j.d) s (s.cyclePass j) k T := by
  by_cases h : j.target.toNat ≤ (s.clkMs.now - j.t0).toNat
  · rw [cyclePass_of_reached h]; exact .inl ⟨rfl, rfl⟩
  · rw [cyclePass_of_not_reached (Nat.not_le.mp h)]
    obtain ⟨hport, hdrive⟩ | ⟨k, T, hpoll⟩ :=
      ledPollBody_port s.sampledMs j.d j.t (go := (·.busy (.cycling j))) fun u => ⟨rfl, rfl⟩
    · exact .inl ⟨hport, hdrive⟩
    · exact .inr ⟨k, T, hpoll.of_eq rfl rfl rfl⟩

/-- A command keeps the port, or polls a channel. -/
theorem exec_port (h : exec i s = .next t) : PortKept s t ∨ ∃ r k T, Polls i r ∧ PortPolled r s t k T := by
  cases i with
  | pwmInit | pwmSetDuty | pwmSetPeriod =>
    obtain ⟨hport, hdrive⟩ := togglerCommand_port (by simp [Instr.opcode]) (by simp [Instr.opcode]) h
    exact .inl ⟨hport, hdrive⟩
  | pwmPoll =>
    obtain rfl | ⟨c, hc, rfl⟩ := onInstance_next h
    · exact .inl ⟨rfl, rfl⟩
    · exact .inr ⟨.standalone c, _, _, .pwmPoll _ c hc, rfl, fun c' e => by cases e; rfl, rfl, rfl⟩
  | ledInit => obtain rfl | ⟨e, q, -, rfl⟩ := execLedInit_next h <;> exact .inl ⟨rfl, rfl⟩
  | ledPoll =>
    obtain ⟨st, rfl⟩ | ⟨d, j, hd, rfl⟩ := execLedPoll_next h
    · exact .inl ⟨rfl, rfl⟩
    · exact (ledPollBody_port s d j (go := State.done) fun u => ⟨rfl, rfl⟩).imp_right fun ⟨k, T, hpoll⟩ =>
        ⟨_, k, T, .ledPoll _ _ d hd, hpoll⟩
  | ledCycle =>
    obtain ⟨st, rfl⟩ | ⟨j, last, hd, -, -, rfl⟩ := execLedCycle_next h
    · exact .inl ⟨rfl, rfl⟩
    · exact (cyclePass_port s.sampledMs j).imp (fun ⟨hport, hdrive⟩ => ⟨hport, hdrive⟩) fun ⟨k, T, hpoll⟩ =>
        ⟨_, k, T, .ledCycle _ _ _ j.d hd, hpoll.of_eq rfl rfl rfl⟩
  | _ =>
    have hf := tableCommand_frame (by simp [Instr.opcode]) h
    exact .inl ⟨hf.port, hf.drive⟩

theorem PortPolled.port_cases (h : PortPolled r s t k T) :
    t.port = s.port ∨ t.port = s.port ||| (s.chanAt r).pin ∨ t.port = s.port &&& ~~~(s.chanAt r).pin := by
  obtain ⟨hpin, -, -, hport⟩ := h
  obtain hd | ⟨hd, -⟩ | ⟨hd, -⟩ := pollDrive_cases k T <;> rw [hd] at hport
  · exact .inl hport
  · exact .inr (.inl (hpin ▸ hport))
  · exact .inr (.inr (hpin ▸ hport))

/-- A poll leaves the bits outside its mask. -/
theorem PortPolled.bits_of_disjoint (h : PortPolled r s t k T) {m : Pins} (hm : (s.chanAt r).pin &&& m = 0) :
    t.port &&& m = s.port &&& m := by
  obtain hp | hp | hp := h.port_cases <;> rw [hp]
  · exact or_and_of_disjoint _ hm
  · exact andNot_and_of_disjoint _ hm

/-- What a step can do to the port: nothing, a poll of one channel, or the environment's write. -/
theorem step_port (h : step s = .next t) :
    t.port = s.port ∨ (∃ r k T, PortPolled r s t k T) ∨
    ∃ m v es, s.env = .portWrite m v :: es ∧ t.port = (s.port &&& ~~~m) ||| (v &&& m) := by
  obtain ⟨-, hblock⟩ | ⟨es, -, rfl⟩ | ⟨m, v, es, henv, rfl⟩ := step_next h
  · obtain ⟨-, rfl⟩ | ⟨j, -, rfl⟩ | ⟨-, w, ws, -, hrun⟩ := blockStep_next hblock
    · exact .inl rfl
    · exact (cyclePass_port _ j).imp (·.port) fun ⟨k, T, hpoll⟩ => .inl ⟨_, k, T, hpoll.of_eq rfl rfl rfl⟩
    · unfold runCommand at hrun
      split at hrun
      · cases hrun; exact .inl rfl
      · exact (exec_port hrun).imp (·.port) fun ⟨r, k, T, _, hpoll⟩ => .inl ⟨r, k, T, hpoll.of_eq rfl rfl rfl⟩
  · exact .inl rfl
  · exact .inr (.inr ⟨m, v, es, henv, rfl⟩)

/-- What a step can do to the pins of the channel `r` where no one else writes them: nothing, or the channel's own poll
sets them all or clears them all, which it does only at a duty above 0 or below `full`. -/
inductive OwnedPins (r : ChanRef) (s t : State) : Prop
  | kept (bits : t.port &&& (s.chanAt r).pin = s.port &&& (s.chanAt r).pin)
  | set (drive : t.drive = .set (s.chanAt r).pin) (bits : t.port &&& (s.chanAt r).pin = (s.chanAt r).pin)
      (duty : ∀ c, r = .standalone c → (s.chan c).duty ≠ 0)
  | cleared (drive : t.drive = .clear (s.chanAt r).pin) (bits : t.port &&& (s.chanAt r).pin = 0)
      (duty : ∀ c, r = .standalone c → (s.chan c).duty ≠ (s.chan c).full)

theorem PortPolled.ownedPins (h : PortPolled r s t k T) : OwnedPins r s t := by
  obtain ⟨hpin, hk, hdrive, hport⟩ := h
  obtain hd | ⟨hd, hduty⟩ | ⟨hd, hduty⟩ := pollDrive_cases k T <;> rw [hd] at hdrive hport
  · exact .kept (congrArg (· &&& _) hport)
  · refine .set (hpin ▸ hdrive) ?_ fun c hr => hk c hr ▸ hduty
    rw [hport, hpin]; exact or_and_mask _ _
  · refine .cleared (hpin ▸ hdrive) ?_ fun c hr => hk c hr ▸ hduty
    rw [hport, hpin]; exact andNot_and_mask _ _

/-- Under the premise of R65 the pins of another channel than the polled one are spared. -/
theorem soleOwner_disjoint {r' : ChanRef} (ho : s.soleOwner r) (hr : r' ≠ r) :
    (s.chanAt r').pin &&& (s.chanAt r).pin = 0 := by
  obtain ⟨hstandalone, hembedded, -⟩ := ho
  cases r' with
  | standalone c => exact hstandalone c hr
  | embedded d => exact hembedded d hr

theorem step_ownedPins (ho : s.soleOwner r) (h : step s = .next t) : OwnedPins r s t := by
  obtain hport | ⟨r', k, T, hpoll⟩ | ⟨m, v, es, henv, hport⟩ := step_port h
  · exact .kept (congrArg (· &&& _) hport)
  · by_cases hr : r' = r
    · exact hr ▸ hpoll.ownedPins
    · exact .kept (hpoll.bits_of_disjoint (soleOwner_disjoint ho hr))
  · obtain ⟨-, -, hothers⟩ := ho
    have hspare : m &&& (s.chanAt r).pin = 0 := by
      simpa [EnvEvent.spares] using hothers (.portWrite m v) (by simp [henv])
    have hval : v &&& m &&& (s.chanAt r).pin = 0 := by rw [BitVec.and_assoc, hspare]; exact BitVec.and_zero
    exact .kept (by rw [hport, or_and_of_disjoint _ hval, andNot_and_of_disjoint _ hspare])

end PortEffects

/-- Settles O28: the command polls the channel its `unit` names, or none. -/
theorem pollsTouchOnlyTheirPins : Obligations.PollsTouchOnlyTheirPins := by
  refine ⟨fun c hc s t h => ?_, fun d tbl hd s t h => ?_⟩
  · obtain hkept | ⟨_, k, T, hpolls, hpoll⟩ := exec_port h
    · exact .inl hkept.port
    · cases hpolls with | pwmPoll _ c' hc' => ?_
      obtain rfl : c' = ⟨c.toNat, hc⟩ := Fin.ext hc'
      exact hpoll.port_cases
  · obtain hkept | ⟨_, k, T, hpolls, hpoll⟩ := exec_port h
    · exact .inl hkept.port
    · cases hpolls with | ledPoll _ _ d' hd' => ?_
      obtain rfl : d' = ⟨d.toNat, hd⟩ := Fin.ext hd'
      exact hpoll.port_cases

/-- Settles O29: another writer is off the pins by the premise, and the channel's own poll does as R105 says. -/
theorem ownedPinsFollowTheirChannel : Obligations.OwnedPinsFollowTheirChannel := by
  refine ⟨fun r s t ho h => ?_, fun c s t ho h => ?_⟩
  · obtain hkept | ⟨hdrive, hbits, -⟩ | ⟨hdrive, hbits, -⟩ := step_ownedPins ho h
    · exact .inl hkept
    · exact .inr (.inl ⟨hdrive, hbits⟩)
    · exact .inr (.inr ⟨hdrive, hbits⟩)
  · obtain hkept | ⟨-, hbits, hduty⟩ | ⟨-, hbits, hduty⟩ := step_ownedPins ho h
    · exact ⟨fun _ => hkept ▸ and_mask_andNot _ _, fun _ => hkept ▸ and_mask_andNot _ _⟩
    · exact ⟨fun h0 => absurd h0 (hduty c rfl), fun _ => and_andNot_of_covered _ hbits⟩
    · exact ⟨fun _ => (congrArg (· &&& ~~~s.port) hbits).trans BitVec.zero_and, fun hf => absurd hf (hduty c rfl)⟩

end Sys2Proof.Machine

namespace Sys2Proof

/-! ## Legal words (30_encoding.md R91)

A word is a legal command of the row `o` where it passes the tests of R87 to R90, which `LegalRow` holds together:
`legalRow_iff_decode` ties them to `decode`, and `legalRow_iff` says slot by slot what they leave of the word. -/

/-- What R87 to R90 ask of a word of the row `o`. -/
structure LegalRow (o : Opcode) (w : Cmd) : Prop where
  op : o.code = w.op
  unit : w.unit.toNat < o.unitCount
  unused : ∀ v ∈ w.slots.drop o.widths.length, v = 0
  fit : ∀ p ∈ List.zip w.slots o.widths, p.1.toNat < 2 ^ p.2
  table : o.hasTable = true → w.slotA.toNat < Config.NTBL

section LegalWords

variable {o : Opcode} {w : Cmd} {i : Instr}

theorem unusedZero_iff : o.unusedZero w = true ↔ ∀ v ∈ w.slots.drop o.widths.length, v = 0 := by
  simp only [Opcode.unusedZero, List.all_eq_true, beq_iff_eq]

theorem operandsFit_iff : o.operandsFit w = true ↔ ∀ p ∈ List.zip w.slots o.widths, p.1.toNat < 2 ^ p.2 := by
  simp only [Opcode.operandsFit, List.all_eq_true, decide_eq_true_eq]

theorem tableInRange_iff : o.tableInRange w = true ↔ (o.hasTable = true → w.slotA.toNat < Config.NTBL) := by
  cases h : o.hasTable <;> simp [Opcode.tableInRange, h]

@[simp] theorem opcode_build (o : Opcode) (w : Cmd) : (o.build w).opcode = o := by cases o <;> rfl

@[simp] theorem unit_build (o : Opcode) (w : Cmd) : (o.build w).unit = w.unit := by cases o <;> rfl

theorem decode_of_legalRow (h : LegalRow o w) : decode w = .ok (o.build w) := by
  obtain ⟨hop, hunit, hunused, hfit, htable⟩ := h
  simp [decode, ← hop, Nat.not_le.mpr hunit, unusedZero_iff.mpr hunused, operandsFit_iff.mpr hfit,
    tableInRange_iff.mpr htable]

theorem legalRow_of_decode (h : decode w = .ok i) : ∃ o, LegalRow o w ∧ i = o.build w := by
  unfold decode at h
  split at h
  · cases h
  · next o ho =>
    split_ifs at h with hunit hunused hfit htable
    cases h
    exact ⟨o, ⟨code_of_ofByte ho, Nat.lt_of_not_le hunit, unusedZero_iff.mp (eq_true_of_ne_false hunused),
      operandsFit_iff.mp (eq_true_of_ne_false hfit), tableInRange_iff.mp (eq_true_of_ne_false htable)⟩, rfl⟩

/-- R91: a word decodes to a command of a row exactly when it passes the row's tests. -/
theorem legalRow_iff_decode : LegalRow o w ↔ ∃ i, decode w = .ok i ∧ i.opcode = o := by
  refine ⟨fun h => ⟨_, decode_of_legalRow h, opcode_build o w⟩, ?_⟩
  rintro ⟨i, hi, rfl⟩
  obtain ⟨o, ho, rfl⟩ := legalRow_of_decode hi
  rwa [opcode_build]

/-- The width of the operand in slot `k`; 0 where the format does not use the slot, so that the tests of R89 and R90
are one: the slot's value is below two to this power. -/
def Opcode.slotWidth (o : Opcode) (k : Nat) : Nat := o.widths.getD k 0

theorem slot_eq_zero_iff (v : Slot) : v = 0#32 ↔ v.toNat = 0 := BitVec.toNat_eq

theorem fit_and_unused_iff :
    ((∀ p ∈ List.zip w.slots o.widths, p.1.toNat < 2 ^ p.2) ∧ ∀ v ∈ w.slots.drop o.widths.length, v = 0) ↔
      w.slotA.toNat < 2 ^ o.slotWidth 0 ∧ w.slotB.toNat < 2 ^ o.slotWidth 1 ∧ w.slotC.toNat < 2 ^ o.slotWidth 2 ∧
        w.slotD.toNat < 2 ^ o.slotWidth 3 := by
  cases o <;> simp [Cmd.slots, Opcode.slotWidth, Opcode.widths, and_assoc, slot_eq_zero_iff]

theorem legalRow_iff : LegalRow o w ↔ o.code = w.op ∧ w.unit.toNat < o.unitCount ∧
    (w.slotA.toNat < 2 ^ o.slotWidth 0 ∧ w.slotB.toNat < 2 ^ o.slotWidth 1 ∧ w.slotC.toNat < 2 ^ o.slotWidth 2 ∧
      w.slotD.toNat < 2 ^ o.slotWidth 3) ∧ (o.hasTable = true → w.slotA.toNat < Config.NTBL) := by
  rw [← fit_and_unused_iff]
  exact ⟨fun ⟨hop, hunit, hunused, hfit, htable⟩ => ⟨hop, hunit, ⟨hfit, hunused⟩, htable⟩,
    fun ⟨hop, hunit, ⟨hfit, hunused⟩, htable⟩ => ⟨hop, hunit, hunused, hfit, htable⟩⟩

end LegalWords

/-! ## The round trip of command and word (R81, R83) -/

section RoundTrip

variable {o : Opcode} {w : Cmd} {i : Instr}

@[simp] theorem op_encode (i : Instr) : (encode i).op = i.opcode.code := by cases i <;> exact op_pack ..

@[simp] theorem unit_encode (i : Instr) : (encode i).unit = i.unit := by cases i <;> exact unit_pack ..

theorem build_encode (i : Instr) : i.opcode.build (encode i) = i := by
  cases i <;> simp (disch := decide) [Instr.opcode, Opcode.build, encode, setWidth_toSlot]

/-- R89, R90: the slots of a command's word hold its operands and nothing else. -/
theorem slots_encode_lt (i : Instr) : (encode i).slotA.toNat < 2 ^ i.opcode.slotWidth 0 ∧
    (encode i).slotB.toNat < 2 ^ i.opcode.slotWidth 1 ∧ (encode i).slotC.toNat < 2 ^ i.opcode.slotWidth 2 ∧
      (encode i).slotD.toNat < 2 ^ i.opcode.slotWidth 3 := by
  cases i <;> simp (disch := decide) [encode, Instr.opcode, Opcode.slotWidth, Opcode.widths, BitVec.isLt]

/-- R88: a command is well-formed exactly when the indices in its word name instances that exist. -/
theorem wf_iff (i : Instr) : i.wf = true ↔ i.unit.toNat < i.opcode.unitCount ∧
    (i.opcode.hasTable = true → (encode i).slotA.toNat < Config.NTBL) := by
  cases i <;> simp [Instr.wf, Instr.unit, Instr.opcode, Opcode.unitCount, Opcode.hasTable, encode]

theorem legalRow_encode (h : i.wf = true) : LegalRow i.opcode (encode i) := by
  obtain ⟨hunit, htable⟩ := (wf_iff i).mp h
  exact legalRow_iff.mpr ⟨(op_encode i).symm, by rwa [unit_encode], slots_encode_lt i, htable⟩

/-- The low `k` bits of a slot. -/
def lowBits (k : Nat) (v : Slot) : Slot := toSlot (v.setWidth k)

theorem lowBits_of_lt {k : Nat} {v : Slot} (h : v.toNat < 2 ^ k) : lowBits k v = v := by
  apply BitVec.eq_of_toNat_eq
  rw [lowBits, toSlot, BitVec.toNat_setWidth, BitVec.toNat_setWidth, Nat.mod_eq_of_lt h, Nat.mod_eq_of_lt v.isLt]

@[simp] theorem lowBits_zero (v : Slot) : lowBits 0 v = 0 := by
  simp [lowBits, toSlot, slot_eq_zero_iff, Nat.mod_one]

/-- The command built from a word carries the word's operands and drops the other bits. -/
theorem encode_build (o : Opcode) (w : Cmd) : encode (o.build w) = Cmd.pack o.code w.unit
    (lowBits (o.slotWidth 0) w.slotA) (lowBits (o.slotWidth 1) w.slotB) (lowBits (o.slotWidth 2) w.slotC)
    (lowBits (o.slotWidth 3) w.slotD) := by
  cases o <;> simp [encode, Opcode.build, Opcode.slotWidth, Opcode.widths] <;> rfl

theorem encode_build_of_legalRow (h : LegalRow o w) : encode (o.build w) = w := by
  obtain ⟨hop, -, ⟨hA, hB, hC, hD⟩, -⟩ := legalRow_iff.mp h
  rw [encode_build, lowBits_of_lt hA, lowBits_of_lt hB, lowBits_of_lt hC, lowBits_of_lt hD, hop, pack_fields]

end RoundTrip

/-- Settles O1: the word of a well-formed command passes the tests of its row, and its slots carry the operands. -/
theorem decodeOfEncodeIsTheCommand : Obligations.DecodeOfEncodeIsTheCommand := by
  intro i hi
  rw [decode_of_legalRow (legalRow_encode hi), build_encode]

/-- Settles O2: a word that passes the tests of its row has no bit beside the operands. -/
theorem encodeOfDecodeIsTheWord : Obligations.EncodeOfDecodeIsTheWord := by
  intro w i hi
  obtain ⟨o, ho, rfl⟩ := legalRow_of_decode hi
  have hword := encode_build_of_legalRow ho
  refine ⟨hword, (wf_iff _).mpr ?_⟩
  rw [hword, unit_build, opcode_build]
  exact ⟨ho.unit, ho.table⟩

/-- Settles O9, by running the decoder on each word. -/
theorem workedWordsDecode : Obligations.WorkedWordsDecode := by
  unfold Obligations.WorkedWordsDecode
  decide

/-! ## The rows of the opcode table (R91) -/

section Rows

variable {o : Opcode} {w : Cmd}

/-- The bits of an `n`-bit field at `k` and above. -/
def bitsFrom (n k : Nat) : BitVec n := BitVec.allOnes n <<< k

theorem getLsbD_bitsFrom (n k j : Nat) : (bitsFrom n k).getLsbD j = (decide (k ≤ j) && decide (j < n)) := by
  rw [Bool.eq_iff_iff]
  simp only [bitsFrom, BitVec.getLsbD_shiftLeft, BitVec.getLsbD_allOnes, Bool.and_eq_true, Bool.not_eq_true',
    decide_eq_true_eq, decide_eq_false_iff_not]
  omega

/-- A field is clear under such a mask exactly when its value is below `2 ^ k`. -/
theorem and_bitsFrom_eq_zero_iff {n k : Nat} {v : BitVec n} : v &&& bitsFrom n k = 0 ↔ v.toNat < 2 ^ k := by
  constructor
  · intro h
    refine Nat.lt_pow_two_of_testBit _ fun j hj => ?_
    by_cases hjn : j < n
    · have hbit := congrArg (BitVec.getLsbD · j) h
      rwa [BitVec.getLsbD_and, getLsbD_bitsFrom, decide_eq_true hj, decide_eq_true hjn, Bool.and_self, Bool.and_true,
        BitVec.ofNat_eq_ofNat, BitVec.getLsbD_zero] at hbit
    · exact BitVec.getLsbD_of_ge v j (Nat.le_of_not_lt hjn)
  · intro h
    refine BitVec.eq_of_getLsbD_eq fun j hj => ?_
    by_cases hkj : k ≤ j
    · have hbit : v.getLsbD j = false := Nat.testBit_lt_two_pow (h.trans_le (Nat.pow_le_pow_right (by decide) hkj))
      rw [BitVec.getLsbD_and, hbit, Bool.false_and, BitVec.ofNat_eq_ofNat, BitVec.getLsbD_zero]
    · simp [getLsbD_bitsFrom, hkj]

/-- How many low bits of slot A a legal word of the row may set: a table index is below 4 (R88). -/
def Opcode.freeBitsA (o : Opcode) : Nat := if o.hasTable then 2 else o.slotWidth 0

/-- The `mask` column, field by field. -/
theorem rowMask_eq (o : Opcode) : o.rowMask = Cmd.pack (BitVec.allOnes 8) (bitsFrom 8 2) (bitsFrom 32 o.freeBitsA)
    (bitsFrom 32 (o.slotWidth 1)) (bitsFrom 32 (o.slotWidth 2)) (bitsFrom 32 (o.slotWidth 3)) := by
  cases o <;> rfl

/-- The `match` column, field by field. -/
theorem rowMatch_eq (o : Opcode) : o.rowMatch = Cmd.pack o.code 0 0 0 0 0 := by cases o <;> rfl

theorem cmd_ext_iff {v w : Cmd} : v = w ↔ v.op = w.op ∧ v.unit = w.unit ∧ v.slotA = w.slotA ∧ v.slotB = w.slotB ∧
    v.slotC = w.slotC ∧ v.slotD = w.slotD :=
  ⟨by rintro rfl; exact ⟨rfl, rfl, rfl, rfl, rfl, rfl⟩, fun ⟨ho, hu, ha, hb, hc, hd⟩ => cmd_ext ho hu ha hb hc hd⟩

theorem op_and (v w : Cmd) : (v &&& w).op = v.op &&& w.op := BitVec.extractLsb'_and
theorem unit_and (v w : Cmd) : (v &&& w).unit = v.unit &&& w.unit := BitVec.extractLsb'_and
theorem slotA_and (v w : Cmd) : (v &&& w).slotA = v.slotA &&& w.slotA := BitVec.extractLsb'_and
theorem slotB_and (v w : Cmd) : (v &&& w).slotB = v.slotB &&& w.slotB := BitVec.extractLsb'_and
theorem slotC_and (v w : Cmd) : (v &&& w).slotC = v.slotC &&& w.slotC := BitVec.extractLsb'_and
theorem slotD_and (v w : Cmd) : (v &&& w).slotD = v.slotD &&& w.slotD := BitVec.extractLsb'_and

theorem and_rowMask_iff : w &&& o.rowMask = o.rowMatch ↔ w.op = o.code ∧ w.unit.toNat < 2 ^ 2 ∧
    w.slotA.toNat < 2 ^ o.freeBitsA ∧ w.slotB.toNat < 2 ^ o.slotWidth 1 ∧ w.slotC.toNat < 2 ^ o.slotWidth 2 ∧
      w.slotD.toNat < 2 ^ o.slotWidth 3 := by
  simp only [rowMask_eq, rowMatch_eq, cmd_ext_iff, op_and, unit_and, slotA_and, slotB_and, slotC_and, slotD_and,
    op_pack, unit_pack, slotA_pack, slotB_pack, slotC_pack, slotD_pack, BitVec.and_allOnes, and_bitsFrom_eq_zero_iff]

theorem unitCount_eq (o : Opcode) : o.unitCount = 2 ^ 2 := by cases o <;> rfl

/-- The operand that holds a table index is wide enough for any. -/
theorem tables_le_of_hasTable : o.hasTable = true → Config.NTBL ≤ 2 ^ o.slotWidth 0 := by cases o <;> decide

theorem lt_freeBitsA_iff {v : Slot} : v.toNat < 2 ^ o.freeBitsA ↔
    v.toNat < 2 ^ o.slotWidth 0 ∧ (o.hasTable = true → v.toNat < Config.NTBL) := by
  cases h : o.hasTable with
  | false => simp [Opcode.freeBitsA, h]
  | true =>
    have hle := tables_le_of_hasTable h
    simp only [Opcode.freeBitsA, h, if_true, forall_const]
    exact ⟨fun hlt => ⟨hlt.trans_le hle, hlt⟩, fun ⟨_, hlt⟩ => hlt⟩

end Rows

/-- Settles O3: under the mask of its row a word shows that it passes the row's tests. -/
theorem legalWordsAreTheTableRows : Obligations.LegalWordsAreTheTableRows := by
  intro o w
  rw [← legalRow_iff_decode, and_rowMask_iff, legalRow_iff, unitCount_eq, lt_freeBitsA_iff]
  exact ⟨fun ⟨hop, hunit, ⟨hA, htable⟩, hBCD⟩ => ⟨hop.symm, hunit, ⟨hA, hBCD⟩, htable⟩,
    fun ⟨hop, hunit, ⟨hA, hBCD⟩, htable⟩ => ⟨hop.symm, hunit, ⟨hA, htable⟩, hBCD⟩⟩

end Sys2Proof

namespace Sys2Proof.Machine

/-! ## Words the host presents (R80, R87) -/

section Presents

variable {o : Opcode} {s : State} {w : Cmd} {i : Instr}

/-- An undisturbed idle block runs the word the host presents, the mask outputs of the step before gone (R63). -/
theorem step_of_presents (h : s.presents w) : step s = runCommand w { s.turn with cmds := s.cmds.tail } := by
  obtain ⟨hu, hidle, hw⟩ := h
  obtain ⟨ws, hws⟩ := List.head?_eq_some_iff.mp hw
  rw [step_of_undisturbed hu]
  simp [blockStep, hidle, State.takeCommand, hws, State.quiet]

theorem runCommand_of_ok (h : decode w = .ok i) (s : State) : runCommand w s = exec i s := by
  simp only [runCommand, h]

/-- R87: a word that passes the tests of no row is answered `ILLEGAL_COMMAND`. -/
theorem runCommand_of_no_row (h : ∀ o, ¬ LegalRow o w) (s : State) :
    runCommand w s = .next (s.raise .illegalCommand) := by
  cases hd : decode w with
  | error e => simp only [runCommand, hd]
  | ok i =>
    obtain ⟨o, ho, -⟩ := legalRow_of_decode hd
    exact absurd ho (h o)

/-- R91: so wherever the row of its `op`, if any, has a test the word fails, the word runs as illegal. -/
theorem runsAsIllegal_of_no_row (h : ∀ o, o.code = w.op → ¬ LegalRow o w) : runsAsIllegal w := fun s hs => by
  rw [step_of_presents hs, runCommand_of_no_row fun o ho => h o ho.op ho]
  rfl

theorem code_injective : Function.Injective Opcode.code := fun o p h =>
  Option.some.inj ((ofByte_code o).symm.trans (h ▸ ofByte_code p))

/-- The same for a word whose row is known. -/
theorem runsAsIllegal_of_code (hop : o.code = w.op) (h : ¬ LegalRow o w) : runsAsIllegal w :=
  runsAsIllegal_of_no_row fun _ hp => code_injective (hp.trans hop.symm) ▸ h

end Presents

/-- Settles O10: the block takes the presented word, and the word decodes to the command. -/
theorem stepRunsTheDecodedCommand : Obligations.StepRunsTheDecodedCommand := by
  intro s w ws i hi hidle hcmds
  have hrun (hu : s.undisturbed) : step s = exec i { s.turn with cmds := ws } := by
    rw [step_of_presents ⟨hu, hidle, by rw [hcmds, List.head?_cons]⟩, runCommand_of_ok hi, hcmds, List.tail_cons]
  refine ⟨fun henv => ?_, fun es henv => ?_⟩
  · rw [hrun (.inl henv)]; simp [henv]
  · rw [hrun (.inr (by rw [henv, List.head?_cons]))]; simp [henv]

theorem opcode_mem_all (o : Opcode) : o ∈ Opcode.all := by cases o <;> decide

/-- Settles O4: no row has a reserved `op`. -/
theorem reservedOpcodesAreIllegal : Obligations.ReservedOpcodesAreIllegal :=
  ⟨⟨by decide, by decide, opcode_mem_all⟩, fun o => by cases o <;> decide,
    fun w hw => runsAsIllegal_of_no_row fun o ho => absurd ho (hw o)⟩

/-- The high digit of `op` is the group, whose count a unit stays below (R86, R88). -/
theorem unitCount_of_pwm {o : Opcode} : o.code.toNat / 16 = 1 → o.unitCount = Config.NCH := by cases o <;> decide

theorem unitCount_of_tbl {o : Opcode} : o.code.toNat / 16 = 2 → o.unitCount = Config.NTBL := by cases o <;> decide

theorem unitCount_of_led {o : Opcode} : o.code.toNat / 16 = 3 → o.unitCount = Config.NLED := by cases o <;> decide

theorem hasTable_of_code {o : Opcode} : o.code = 0x31 ∨ o.code = 0x32 → o.hasTable = true := by cases o <;> decide

theorem runsAsIllegal_of_unit {w : Cmd} (h : ∀ o : Opcode, o.code = w.op → o.unitCount ≤ w.unit.toNat) :
    runsAsIllegal w :=
  runsAsIllegal_of_no_row fun o ho hrow => absurd hrow.unit (Nat.not_lt.mpr (h o ho))

/-- Settles O5: such a word fails the test of the unit or of the table operand of its row. -/
theorem outOfRangeIndicesAreIllegal : Obligations.OutOfRangeIndicesAreIllegal := by
  intro w
  refine ⟨fun ⟨hg, hu⟩ => runsAsIllegal_of_unit fun o ho => ?_, fun ⟨hg, hu⟩ => runsAsIllegal_of_unit fun o ho => ?_,
    fun ⟨hg, hu⟩ => runsAsIllegal_of_unit fun o ho => ?_, fun ⟨hop, ha⟩ => runsAsIllegal_of_no_row fun o ho hrow => ?_⟩
  · rwa [unitCount_of_pwm (ho ▸ hg)]
  · rwa [unitCount_of_tbl (ho ▸ hg)]
  · rwa [unitCount_of_led (ho ▸ hg)]
  · exact absurd (hrow.table (hasTable_of_code (ho ▸ hop))) (Nat.not_lt.mpr ha)

/-- Settles O6: such a word fails the test of the unused slots. -/
theorem unusedSlotsMustBeZero : Obligations.UnusedSlotsMustBeZero := by
  rintro o w hop ⟨v, hv, hne⟩
  exact runsAsIllegal_of_code hop fun hrow => hne (hrow.unused v hv)

theorem hasTable_iff {o : Opcode} : o.hasTable = true ↔ o = .ledPoll ∨ o = .ledCycle := by cases o <;> decide

/-- Settles O7: such a word fails the test of the widths, and the tests of the row are all there is. -/
theorem operandsMustFitAndNothingElseIsChecked : Obligations.OperandsMustFitAndNothingElseIsChecked := by
  refine ⟨?_, fun o w hop hunit hunused hfit htable => ?_⟩
  · rintro o w hop ⟨p, hp, hwide⟩
    exact runsAsIllegal_of_code hop fun hrow => absurd (hrow.fit p hp) (Nat.not_lt.mpr hwide)
  · exact legalRow_iff_decode.mp ⟨hop, hunit, hunused, hfit, fun h => htable (hasTable_iff.mp h)⟩

/-! ## The response word (R84, R85) -/

theorem word_status (r : Response) : r.word.extractLsb' 64 8 = r.status.code := by
  rw [Response.word, BitVec.append_assoc]
  exact BitVec.extractLsb'_append_eq_left

theorem word_results (r : Response) : r.word.extractLsb' 0 64 = r.res0 ++ r.res1 := by
  rw [Response.word, BitVec.append_assoc]
  exact BitVec.extractLsb'_append_eq_right

theorem word_res0 (r : Response) : r.word.extractLsb' 32 32 = r.res0 := by
  rw [Response.word, BitVec.extractLsb'_append_eq_of_le (by decide)]
  exact BitVec.extractLsb'_append_eq_right

theorem word_res1 (r : Response) : r.word.extractLsb' 0 32 = r.res1 := BitVec.extractLsb'_append_eq_right

/-- R184: a state whose response, if it has one, is `OK` or carries no result. -/
def FaultsCarryNoResult (t : State) : Prop :=
  ∀ r, t.resp = some r → r.status = .ok ∨ r.res0 = 0 ∧ r.res1 = 0

section Responses

variable {i : Instr} {s t : State}

theorem respond_ok_noResult (s : State) (r0 r1 : Slot) : FaultsCarryNoResult (s.respond .ok r0 r1) := by
  rintro r ⟨⟩; exact .inl rfl

theorem raise_noResult (s : State) (st : Status) : FaultsCarryNoResult (s.raise st) := by
  rintro r ⟨⟩; exact .inr ⟨rfl, rfl⟩

theorem busy_noResult (s : State) (a : Activity) : FaultsCarryNoResult (s.busy a) := by rintro r ⟨⟩

theorem onInstance_noResult {n : Nat} {u : Unit8} {f : Fin n → State} (h : onInstance n u s f = .next t)
    (hf : ∀ k, FaultsCarryNoResult (f k)) : FaultsCarryNoResult t := by
  obtain rfl | ⟨k, -, rfl⟩ := onInstance_next h
  · exact raise_noResult s _
  · exact hf k

theorem ledPollBody_noResult (s : State) (d : Fin Config.NLED) (k : Fin Config.NTBL) {go : State → State}
    (hgo : ∀ u, FaultsCarryNoResult (go u)) : FaultsCarryNoResult (s.ledPollBody d k go) := by
  obtain h | ⟨-, h⟩ | ⟨-, h⟩ | ⟨last, -, -, h⟩ := ledPollBody_cases s d k go <;> rw [h]
  · exact hgo _
  · exact raise_noResult _ _
  · exact busy_noResult _ _
  · exact hgo _

theorem cyclePass_noResult (s : State) (j : CycleJob) : FaultsCarryNoResult (s.cyclePass j) := by
  by_cases h : j.target.toNat ≤ (s.clkMs.now - j.t0).toNat
  · rw [cyclePass_of_reached h]; exact respond_ok_noResult _ _ _
  · rw [cyclePass_of_not_reached (Nat.not_le.mp h)]
    exact ledPollBody_noResult _ _ _ fun u => busy_noResult u _

/-- Every command ends with `OK`, or with a fault and no result, or is busy (R14, R184). -/
theorem exec_noResult (h : exec i s = .next t) : FaultsCarryNoResult t := by
  cases i with
  | pwmInit | pwmPoll | pwmSetDuty | pwmSetPeriod | tblInit | ledInit =>
    exact onInstance_noResult h fun k => respond_ok_noResult _ _ _
  | tblPush | tblPop =>
    refine onInstance_noResult h fun k => ?_
    split
    · exact raise_noResult _ _
    · exact respond_ok_noResult _ _ _
  | tblMirror | tblNplicate =>
    refine onInstance_noResult h fun k => ?_
    split
    · exact raise_noResult _ _
    · split
      · exact raise_noResult _ _
      · exact respond_ok_noResult _ _ _
  | tblInterp =>
    refine onInstance_noResult h fun k => ?_
    split
    · exact raise_noResult _ _
    · exact respond_ok_noResult _ _ _
    · exact respond_ok_noResult _ _ _
  | ledPoll =>
    obtain ⟨st, rfl⟩ | ⟨d, k, -, rfl⟩ := execLedPoll_next h
    · exact raise_noResult _ _
    · exact ledPollBody_noResult s d k fun u => respond_ok_noResult u 0 0
  | ledCycle =>
    obtain ⟨st, rfl⟩ | ⟨j, last, -, -, -, rfl⟩ := execLedCycle_next h
    · exact raise_noResult _ _
    · exact cyclePass_noResult _ j

end Responses

/-- Settles O11: the fields of the word, and what a command can respond. -/
theorem responseWordLayout : Obligations.ResponseWordLayout := by
  refine ⟨fun r => ⟨?_, word_res0 r, word_res1 r⟩, fun i s t r h hr hne => ?_⟩
  · rw [word_status]; cases r.status <;> rfl
  · obtain hok | ⟨h0, h1⟩ := exec_noResult h r hr
    · rw [word_status, hok] at hne; exact absurd rfl hne
    · rw [word_results, h0, h1]; rfl

end Sys2Proof.Machine

namespace Sys2Proof.Machine

/-! ## A poll of a channel (40_pwm_toggler.md R104 to R106, R110)

`polled_cases` says what a poll can do; here is which of its cases the registers select. -/

section Poll

variable {k : Chan} {T : Us}

theorem due_iff : k.due T = true ↔ k.keep.toNat ≤ (T - k.lastSw).toNat := decide_eq_true_iff

theorem due_eq_false_iff : k.due T = false ↔ (T - k.lastSw).toNat < k.keep.toNat := by
  rw [← Bool.not_eq_true, due_iff, Nat.not_le]

theorem toggles_of_on (h : k.on = true) : k.toggles = (k.duty != k.full) := by simp [Chan.toggles, h]

theorem toggles_of_off (h : k.on = false) : k.toggles = (k.duty != 0) := by simp [Chan.toggles, h]

/-- R110: with `full = 0` and a duty of 0 a channel is at both ends at once. -/
theorem not_toggles_of_full_zero (hf : k.full = 0) (hz : k.duty = 0) : k.toggles = false := by
  simp [Chan.toggles, hf, hz]

theorem polled_of_toggles (hd : k.due T = true) (ht : k.toggles = true) (a : Us) :
    k.polled T a = { k with on := !k.on, keep := k.nextHold a, lastSw := T } := by simp [Chan.polled, hd, ht]

theorem pollDrive_of_toggles (hd : k.due T = true) (ht : k.toggles = true) :
    k.pollDrive T = if k.on then .clear k.pin else .set k.pin := by simp [Chan.pollDrive, hd, ht]

theorem polled_of_not_toggles (hd : k.due T = true) (ht : k.toggles = false) (a : Us) :
    k.polled T a = { k with keep := k.period, lastSw := T } := by simp [Chan.polled, hd, ht]

theorem pollDrive_of_not_toggles (ht : k.toggles = false) (T : Us) : k.pollDrive T = .none := by
  simp [Chan.pollDrive, ht]

/-- R114: no poll sets the pins of a channel whose duty is 0. -/
theorem pollDrive_ne_set (hz : k.duty = 0) (T : Us) (m : Pins) : k.pollDrive T ≠ .set m := by
  obtain hd | ⟨-, hne⟩ | ⟨hd, -⟩ := pollDrive_cases k T
  · rw [hd]; nofun
  · exact absurd hz hne
  · rw [hd]; nofun

/-- R115: no poll clears the pins of a channel whose duty is full. -/
theorem pollDrive_ne_clear (hf : k.duty = k.full) (T : Us) (m : Pins) : k.pollDrive T ≠ .clear m := by
  obtain hd | ⟨hd, -⟩ | ⟨-, hne⟩ := pollDrive_cases k T
  · rw [hd]; nofun
  · rw [hd]; nofun
  · exact absurd hf hne

/-- R28: a poll that passes the time test records its sample, transition or not. -/
theorem polled_lastSw_of_due (hd : k.due T = true) (a : Us) : (k.polled T a).lastSw = T := by
  cases ht : k.toggles
  · rw [polled_of_not_toggles hd ht]
  · rw [polled_of_toggles hd ht]

theorem polled_on_of_not_toggles (ht : k.toggles = false) (T a : Us) : (k.polled T a).on = k.on := by
  cases hd : k.due T
  · rw [polled_of_not_due hd]
  · rw [polled_of_not_toggles hd ht]

/-- R110: with a malformed duty a transition arms the free value. -/
theorem nextHold_of_malformed (h : k.full.toNat < k.duty.toNat ∨ k.full = 0) (a : Us) : k.nextHold a = a := by
  rw [nextHold_eq_rule, holdRule, holdRule, if_pos h.symm, if_pos h.symm, ite_self]

/-- R103: the channel `PWM.INIT` leaves holds for 0, so any poll is due. -/
theorem due_init (pin : Pins) (period : Us) (duty full : Duty) (T₀ T : Us) :
    (Chan.init pin period duty full T₀).due T = true := due_iff.mpr (Nat.zero_le _)

/-- R103, R105: the hold armed by the first poll after `PWM.INIT`. -/
theorem polled_init_keep (pin : Pins) (period : Us) (duty full : Duty) (T₀ T a : Us) :
    ((Chan.init pin period duty full T₀).polled T a).keep =
      if duty = 0 then period else holdRule (Chan.init pin period duty full T₀) duty.toNat a := by
  have hdue := due_init pin period duty full T₀ T
  have htog : (Chan.init pin period duty full T₀).toggles = (duty != 0) := toggles_of_off rfl
  by_cases hz : duty = 0
  · rw [polled_of_not_toggles hdue (htog.trans (bne_eq_false_iff_eq.mpr hz)), if_pos hz]; rfl
  · rw [polled_of_toggles hdue (htog.trans (bne_iff_ne.mpr hz)), if_neg hz]; exact nextHold_eq_rule _ a

end Poll

/-! ## The state a poll ends in (R105) -/

section PollEnd

variable {s : State} {c : Fin Config.NCH}

@[simp] theorem setChan_self (s : State) (c : Fin Config.NCH) : s.setChan c (s.chan c) = s := by
  simp [State.setChan, State.chan, Vector.get_eq_getElem]

@[simp] theorem withClkUs_chan (s : State) (T : ClockIn Config.TW) (c : Fin Config.NCH) :
    ({ s with clkUs := T } : State).chan c = s.chan c := rfl

/-- The state a `PWM.POLL` of channel `c` ends in. -/
def State.pollEnd (s : State) (c : Fin Config.NCH) : State :=
  ((s.afterPoll (s.chan c)).setChan c (s.polledChan (s.chan c))).done

theorem exec_pwmPoll {u : Unit8} (hu : isChannel u) (s : State) :
    exec (.pwmPoll u) s = .next (s.pollEnd ⟨u.toNat, hu⟩) := onInstance_of_lt hu s _

@[simp] theorem pollEnd_chan_self (s : State) (c : Fin Config.NCH) :
    (s.pollEnd c).chan c = (s.chan c).polled s.clkUs.now (Config.anyTW s.draws) := chan_setChan_self _ c _

@[simp] theorem pollEnd_drive (s : State) (c : Fin Config.NCH) :
    (s.pollEnd c).drive = (s.chan c).pollDrive s.clkUs.now := rfl

@[simp] theorem pollEnd_port (s : State) (c : Fin Config.NCH) :
    (s.pollEnd c).port = ((s.chan c).pollDrive s.clkUs.now).apply s.port := rfl

theorem pollEnd_chans_of_not_due (hd : (s.chan c).due s.clkUs.now = false) : (s.pollEnd c).chans = s.chans := by
  have hchan : s.polledChan (s.chan c) = s.chan c := polled_of_not_due hd _
  rw [State.pollEnd, hchan]
  exact (congrArg State.chans (setChan_self s c) :)

/-- R110: where the duty is malformed, the transition is made and the hold it arms is the free value. -/
theorem pollEnd_chan_of_malformed (hd : (s.chan c).due s.clkUs.now = true) (ht : (s.chan c).toggles = true)
    (hmal : (s.chan c).full.toNat < (s.chan c).duty.toNat ∨ (s.chan c).full = 0) :
    (s.pollEnd c).chan c =
      { s.chan c with on := !(s.chan c).on, keep := Config.anyTW s.draws, lastSw := s.clkUs.now } := by
  rw [pollEnd_chan_self, polled_of_toggles hd ht, nextHold_of_malformed hmal]

theorem pollEnd_port_of_toggles (hd : (s.chan c).due s.clkUs.now = true) (ht : (s.chan c).toggles = true) :
    (s.pollEnd c).port = if (s.chan c).on then s.port &&& ~~~(s.chan c).pin else s.port ||| (s.chan c).pin := by
  rw [pollEnd_port, pollDrive_of_toggles hd ht]
  split <;> rfl

end PollEnd

/-- Settles O20: the model's poll is the rule's (`pollRule_eq`), and so is what it does to the port. -/
theorem pwmPollFollowsTheAlgorithm : Obligations.PwmPollFollowsTheAlgorithm := by
  intro c hc s
  rw [exec_pwmPoll hc, pollRule_eq, portRule_eq]
  exact ⟨rfl, rfl⟩

/-- Settles O21, by the two sides of the time test. -/
theorem pollPassesExactlyFromTheDeadline : Obligations.PollPassesExactlyFromTheDeadline := by
  intro c hc s
  refine ⟨fun h => ⟨_, exec_pwmPoll hc s, ?_⟩, fun h => ⟨_, exec_pwmPoll hc s, ?_⟩⟩
  · have hdue := due_eq_false_iff.mpr h
    have hdrive := pollDrive_of_not_due hdue
    exact ⟨pollEnd_chans_of_not_due hdue, by rw [pollEnd_port, hdrive]; rfl, hdrive⟩
  · rw [pollEnd_chan_self]; exact polled_lastSw_of_due (due_iff.mpr h) _

/-- Settles O22: `PWM.INIT` arms a hold of 0, which every sample has reached. -/
theorem firstPollAfterInitPasses : Obligations.FirstPollAfterInitPasses := by
  intro c hc pin period duty full s T
  refine ⟨_, onInstance_of_lt hc s _, _, exec_pwmPoll hc _, ?_⟩
  rw [pollEnd_chan_self, withClkUs_chan, done_chan, chan_setChan_self]
  exact ⟨polled_lastSw_of_due (due_init ..) _, polled_init_keep ..⟩

/-- Settles O23: with such a duty the hold of a transition is the free value, and none is computed without one. -/
theorem malformedDutyArmsAFreeHold : Obligations.MalformedDutyArmsAFreeHold := by
  intro c hc s hkeep hmal
  have hdue := due_iff.mpr hkeep
  refine ⟨fun hon hne => ⟨_, exec_pwmPoll hc s, ?_⟩, fun hoff hne => ⟨_, exec_pwmPoll hc s, ?_⟩,
    fun hfull hduty => ⟨_, exec_pwmPoll hc s, ?_⟩⟩
  · have htog := (toggles_of_on hon).trans (bne_iff_ne.mpr hne)
    rw [pollEnd_chan_of_malformed hdue htog hmal, pollEnd_port_of_toggles hdue htog, hon]
    exact ⟨rfl, rfl, rfl⟩
  · have htog := (toggles_of_off hoff).trans (bne_iff_ne.mpr hne)
    rw [pollEnd_chan_of_malformed hdue htog hmal, pollEnd_port_of_toggles hdue htog, hoff]
    exact ⟨rfl, rfl, rfl⟩
  · have htog := not_toggles_of_full_zero hfull hduty
    rw [pollEnd_chan_self, pollEnd_port, polled_of_not_toggles hdue htog, pollDrive_of_not_toggles htog]
    exact ⟨rfl, rfl, rfl⟩

/-! ## The holds (R106, R113) -/

/-- Where `f` divides a sum, the quotients of the two summands are one short of the sum's, unless both are exact. -/
theorem div_add_div_of_dvd_add {f a b : Nat} (hf : 0 < f) (h : f ∣ a + b) :
    a / f + b / f = if f ∣ a then (a + b) / f else (a + b) / f - 1 := by
  split
  · next ha => exact (Nat.add_div_of_dvd_right ha).symm
  · next ha =>
    rw [Nat.add_div_eq_of_le_mod_add_mod (Nat.le_mod_add_mod_of_dvd_add_of_not_dvd h ha) hf, Nat.add_sub_cancel]

/-- R106: the quotient of a hold fits the register, since the hold is at most the period. -/
theorem scale_toNat {n f : Nat} (p : Us) (h : n ≤ f) : (scale p n f).toNat = p.toNat * n / f := by
  have hle : p.toNat * n / f ≤ p.toNat :=
    Nat.div_le_of_le_mul (by rw [Nat.mul_comm f]; exact Nat.mul_le_mul_left _ h)
  rw [scale, BitVec.toNat_ofNat, Nat.mod_eq_of_lt (hle.trans_lt p.isLt)]

/-- Settles O25: the two dividends sum to `period * full`. -/
theorem holdsSumToThePeriod : Obligations.HoldsSumToThePeriod := by
  intro k hpos hlt
  have hsum : k.period.toNat * k.duty.toNat + k.period.toNat * (k.full.toNat - k.duty.toNat) =
      k.period.toNat * k.full.toNat := by rw [← Nat.mul_add, Nat.add_sub_cancel' hlt.le]
  have hfull : 0 < k.full.toNat := hpos.trans hlt
  rw [Chan.holdOn, Chan.holdOff, scale_toNat _ hlt.le, scale_toNat _ (Nat.sub_le ..),
    div_add_div_of_dvd_add hfull (hsum ▸ Nat.dvd_mul_left ..), hsum, Nat.mul_div_cancel _ hfull]

/-! ## The two ends of the duty (R114, R115) -/

section DutyEnds

variable {i : Instr} {k k' : Chan} {s t : State}

/-- What a step can do to a standalone channel: nothing, the reset, or the write of a command. -/
theorem step_chan (h : step s = .next t) (c : Fin Config.NCH) :
    t.chan c = s.chan c ∨ t.chan c = Chan.reset ∨ ∃ i, ChanWrite i (s.chan c) (t.chan c) := by
  obtain ⟨-, hblock⟩ | ⟨es, -, rfl⟩ | ⟨m, v, es, -, rfl⟩ := step_next h
  · obtain ⟨-, rfl⟩ | ⟨j, -, rfl⟩ | ⟨-, w, ws, -, hrun⟩ := blockStep_next hblock
    · exact .inl rfl
    · exact .inl (chan_of_chans_eq (cyclePass_pollFrame _ j).chans c)
    · unfold runCommand at hrun
      split at hrun
      · cases hrun; exact .inl rfl
      · exact (exec_chan hrun c).imp_right fun ⟨_, hw⟩ => .inr ⟨_, hw⟩
  · exact .inr (.inl (reset_chan c))
  · exact .inl rfl

/-- R114: no command turns ON a channel that is OFF with a duty of 0. -/
theorem ChanWrite.off_of_duty_zero (h : ChanWrite i k k') (hoff : k.on = false) (hduty : k.duty = 0) :
    k'.on = false := by
  cases h with
  | init => rfl
  | poll => rw [polled_on_of_not_toggles (by simp [toggles_of_off hoff, hduty]), hoff]
  | setDuty | setPeriod => exact hoff

/-- R115: of the commands only `PWM.INIT` can turn OFF a channel that is ON with `duty = full`. -/
theorem ChanWrite.on_of_duty_full (h : ChanWrite i k k') (hon : k.on = true) (hduty : k.duty = k.full) :
    i.opcode = .pwmInit ∨ k'.on = true := by
  cases h with
  | init => exact .inl rfl
  | poll => exact .inr (by rw [polled_on_of_not_toggles (by simp [toggles_of_on hon, hduty]), hon])
  | setDuty | setPeriod => exact .inr hon

end DutyEnds

/-- Settles O26: a set takes a duty above 0, and no write of a step turns the channel ON. -/
theorem dutyZeroNeverTurnsOn : Obligations.DutyZeroNeverTurnsOn := by
  refine ⟨fun c hc s t hduty h m => ?_, fun c s t hoff hduty h => ?_⟩
  · rw [exec_pwmPoll hc] at h
    cases h
    exact pollDrive_ne_set hduty _ m
  · obtain e | e | ⟨i, hw⟩ := step_chan h c
    · rw [e, hoff]
    · rw [e]; rfl
    · exact hw.off_of_duty_zero hoff hduty

/-- Settles O27: a clear takes a duty other than `full`, and `PWM.INIT` alone turns the channel OFF. -/
theorem dutyFullNeverTurnsOff : Obligations.DutyFullNeverTurnsOff := by
  refine ⟨fun c hc s t hduty h m => ?_, fun c i s t hon hduty hinit h => ?_⟩
  · rw [exec_pwmPoll hc] at h
    cases h
    exact pollDrive_ne_clear hduty _ m
  · obtain e | ⟨hu, hw⟩ := exec_chan h c
    · rw [e, hon]
    · cases i with
      | pwmInit u pin period duty full => exact absurd hu (hinit u pin period duty full rfl)
      | _ => exact (hw.on_of_duty_full hon hduty).resolve_left nofun

/-- Settles O19: the command runs on the channel its index names. -/
theorem pwmInitReplacesSevenRegisters : Obligations.PwmInitReplacesSevenRegisters :=
  fun _ hc _ _ _ _ s => ⟨onInstance_of_lt hc s _, rfl⟩

/-- Settles O24: each command runs on the channel its index names. -/
theorem writeCommandsWriteOneRegister : Obligations.WriteCommandsWriteOneRegister :=
  fun _ hc s => ⟨fun _ => ⟨onInstance_of_lt hc s _, rfl⟩, fun _ => ⟨onInstance_of_lt hc s _, rfl⟩⟩

end Sys2Proof.Machine

namespace Sys2Proof.Machine

/-! ## The entries of a built table (41_table.md R126, R130) -/

section Builders

variable {es : Table} {P : XVal} {i j n : Nat} {e first last : Breakpoint}

theorem mirrored_getElem?_old (hi : i < es.length) : (es.mirrored P)[i]? = es[i]? :=
  List.getElem?_append_left hi

/-- The appended part is read backwards, from the entry before the last. -/
theorem mirrored_getElem?_reflected (hj : j < es.length - 1) :
    (es.mirrored P)[es.length + j]? = (es[es.length - 2 - j]?).map (Breakpoint.reflect P) := by
  have hback : es.length - 1 - 1 - j = es.length - 2 - j := by omega
  rw [Table.mirrored, List.getElem?_append_right (Nat.le_add_right ..), Nat.add_sub_cancel_left, List.getElem?_map,
    List.getElem?_reverse (by rwa [List.length_dropLast]), List.length_dropLast, hback, List.getElem?_dropLast,
    if_pos (by omega)]

@[simp] theorem shift_zero (P : XVal) (e : Breakpoint) : e.shift P 0 = e := by simp [Breakpoint.shift]

@[simp] theorem nplicated_zero (es : Table) (P : XVal) : es.nplicated P 0 = es := by simp [Table.nplicated]

/-- One more repetition appends one more copy. -/
theorem nplicated_succ (es : Table) (P : XVal) (n : Nat) :
    es.nplicated P (n + 1) = es.nplicated P n ++ es.map (Breakpoint.shift P (n + 1)) := by
  simp [Table.nplicated, List.range_succ]

/-- Copy `j`, the old entries being copy 0, stands from entry `j * m` on. -/
theorem nplicated_getElem? (hj : j ≤ n) (hi : i < es.length) :
    (es.nplicated P n)[j * es.length + i]? = (es[i]?).map (Breakpoint.shift P j) := by
  induction n with
  | zero =>
    obtain rfl := Nat.le_zero.mp hj
    simp [List.getElem?_eq_getElem hi]
  | succ n ih =>
    rw [nplicated_succ]
    obtain hle | rfl := Nat.le_succ_iff.mp hj
    · have hcopy : j * es.length + i < (es.nplicated P n).length := by
        have hcopies : j * es.length ≤ n * es.length := Nat.mul_le_mul_right _ hle
        rw [nplicated_length, Nat.mul_succ, Nat.mul_comm es.length]
        omega
      rw [List.getElem?_append_left hcopy, ih hle]
    · have hstart : (n + 1) * es.length = (es.nplicated P n).length := by rw [nplicated_length, Nat.mul_comm]
      rw [hstart, List.getElem?_append_right (Nat.le_add_right ..), Nat.add_sub_cancel_left, List.getElem?_map]

/-! ## The order of a built table (R129, R133) -/

theorem reflect_x_toNat (hP : 2 * P.toNat < 2 ^ Config.XW) (he : e.x.toNat ≤ P.toNat) :
    (e.reflect P).x.toNat = 2 * P.toNat - e.x.toNat := by
  have hPP : (P + P).toNat = 2 * P.toNat := by rw [BitVec.toNat_add, ← two_mul, Nat.mod_eq_of_lt hP]
  rw [Breakpoint.reflect, BitVec.toNat_sub_of_le (by rw [BitVec.le_def]; omega), hPP]

theorem shift_x_toNat (h : e.x.toNat + j * P.toNat < 2 ^ Config.XW) :
    (e.shift P j).x.toNat = e.x.toNat + j * P.toNat := by
  simp [Breakpoint.shift, Nat.mod_eq_of_lt h]

/-- The last `x` of a sorted table is its greatest. -/
theorem x_le_last (hs : es.sorted) (hl : es.getLast? = some last) (he : e ∈ es) : e.x.toNat ≤ last.x.toNat := by
  obtain ⟨ys, rfl⟩ := List.getLast?_eq_some_iff.mp hl
  obtain hy | hy := List.mem_append.mp he
  · exact (List.pairwise_append.mp hs).2.2 e hy last (List.mem_singleton_self _)
  · rw [List.mem_singleton.mp hy]

theorem mem_mirrored_reflect (he : e ∈ es.dropLast) : e.reflect P ∈ es.mirrored P :=
  List.mem_append_right _ (List.mem_map_of_mem (List.mem_reverse.mpr he))

section Mirror

variable (hs : es.sorted) (hl : es.getLast? = some last) (hP : 2 * last.x.toNat < 2 ^ Config.XW)
include hs hl hP

theorem reflect_last_x_toNat (he : e ∈ es) : (e.reflect last.x).x.toNat = 2 * last.x.toNat - e.x.toNat :=
  reflect_x_toNat hP (x_le_last hs hl he)

/-- The old entries stay at or below `P`, the reflected ones stand at or above it, in the opposite order. -/
theorem mirrored_sorted : (es.mirrored last.x).sorted := by
  have hsub : ∀ {e}, e ∈ es.dropLast → e ∈ es := List.mem_of_mem_dropLast
  refine List.pairwise_append.mpr ⟨hs, ?_, ?_⟩
  · rw [List.pairwise_map, List.pairwise_reverse]
    refine (hs.sublist (List.dropLast_sublist es)).imp_of_mem fun ha hb hab => ?_
    rw [reflect_last_x_toNat hs hl hP (hsub ha), reflect_last_x_toNat hs hl hP (hsub hb)]
    omega
  · intro a ha b hb
    obtain ⟨e, he, rfl⟩ := List.mem_map.mp hb
    have he := hsub (List.mem_reverse.mp he)
    have ha_le := x_le_last hs hl ha
    have he_le := x_le_last hs hl he
    rw [reflect_last_x_toNat hs hl hP he]
    omega

/-- A table of one entry is its own mirror, and its `x` is `P`; a longer one ends with the reflection of the first. -/
theorem mirrored_getLast? (hf : es.head? = some first) :
    ∃ e, (es.mirrored last.x).getLast? = some e ∧ e.x.toNat = 2 * last.x.toNat - first.x.toNat := by
  obtain ⟨rest, rfl⟩ := List.head?_eq_some_iff.mp hf
  cases rest with
  | nil =>
    obtain rfl : first = last := by simpa using hl
    exact ⟨first, by simp [Table.mirrored], by omega⟩
  | cons r rs =>
    exact ⟨first.reflect last.x, by rw [Table.mirrored, List.getLast?_append]; simp,
      reflect_last_x_toNat hs hl hP (List.mem_cons_self ..)⟩

end Mirror

/-- The repetition with `n` copies stays at or below `(n + 1) * P`, where copy `n + 1` starts. -/
theorem nplicated_sorted_and_le (hs : es.sorted) (hl : es.getLast? = some last) :
    (n + 1) * last.x.toNat < 2 ^ Config.XW →
      (es.nplicated last.x n).sorted ∧ ∀ e ∈ es.nplicated last.x n, e.x.toNat ≤ (n + 1) * last.x.toNat := by
  induction n with
  | zero => exact fun _ => by simpa using ⟨hs, fun e => x_le_last hs hl⟩
  | succ n ih =>
    intro hP
    have hstep : (n + 1 + 1) * last.x.toNat = (n + 1) * last.x.toNat + last.x.toNat := Nat.succ_mul ..
    obtain ⟨hsorted, hle⟩ := ih (by omega)
    have hcopy : ∀ e ∈ es, (e.shift last.x (n + 1)).x.toNat = e.x.toNat + (n + 1) * last.x.toNat := fun e he =>
      shift_x_toNat (by have := x_le_last hs hl he; omega)
    rw [nplicated_succ]
    refine ⟨List.pairwise_append.mpr ⟨hsorted, ?_, ?_⟩, ?_⟩
    · refine List.pairwise_map.mpr (hs.imp_of_mem fun ha hb hab => ?_)
      rw [hcopy _ ha, hcopy _ hb]
      omega
    · intro a ha b hb
      obtain ⟨e, he, rfl⟩ := List.mem_map.mp hb
      have := hle a ha
      rw [hcopy e he]
      omega
    · intro a ha
      obtain ha | ha := List.mem_append.mp ha
      · have := hle a ha
        omega
      · obtain ⟨e, he, rfl⟩ := List.mem_map.mp ha
        have := x_le_last hs hl he
        rw [hcopy e he]
        omega

end Builders

/-! ## The lookup (R135 to R139) -/

theorem exists_getLast? {es : Table} (h : 0 < es.length) : ∃ last, es.getLast? = some last :=
  ⟨_, List.getLast?_eq_some_getLast (List.ne_nil_of_length_pos h)⟩

/-- A fraction of `d` at or below one, rounded toward zero, lies between 0 and `d`. -/
theorem tdiv_mul_between {a b d : Int} (ha : 0 ≤ a) (hab : a ≤ b) (hb : 0 < b) :
    min 0 d ≤ (a * d).tdiv b ∧ (a * d).tdiv b ≤ max 0 d := by
  have hupper : ∀ {c : Int}, 0 ≤ c → 0 ≤ (a * c).tdiv b ∧ (a * c).tdiv b ≤ c := fun {c} hc => by
    rw [Int.tdiv_eq_ediv_of_nonneg (mul_nonneg ha hc)]
    have hac : a * c ≤ b * c := mul_le_mul_of_nonneg_right hab hc
    exact ⟨Int.ediv_nonneg (mul_nonneg ha hc) hb.le, Int.ediv_le_of_le_mul hb (by linarith)⟩
  obtain hd | hd := le_total 0 d
  · have := hupper hd
    omega
  · have := hupper (neg_nonneg.mpr hd)
    rw [mul_neg, Int.neg_tdiv] at this
    omega

section Lookup

variable {es pre post rs : Table} {q : XVal} {e l r last p : Breakpoint} {mid : List Breakpoint}

theorem interpolate_between (hl : l.x.toNat ≤ q.toNat) (hr : q.toNat < r.x.toNat) :
    (min l.y.toNat r.y.toNat : Int) ≤ interpolate l r q ∧ interpolate l r q ≤ (max l.y.toNat r.y.toNat : Int) := by
  obtain ⟨hlo, hhi⟩ := tdiv_mul_between (a := (q.toNat : Int) - l.x.toNat) (b := (r.x.toNat : Int) - l.x.toNat)
    (d := (r.y.toNat : Int) - l.y.toNat) (by omega) (by omega) (by omega)
  unfold interpolate
  omega

/-- An interpolated value needs no more bits than a `y`. -/
theorem interpolate_fits (hl : l.x.toNat ≤ q.toNat) (hr : q.toNat < r.x.toNat) :
    0 ≤ interpolate l r q ∧ interpolate l r q < 2 ^ Config.YW := by
  obtain ⟨hlo, hhi⟩ := interpolate_between hl hr
  have hmax : (max l.y.toNat r.y.toNat : Int) < 2 ^ Config.YW := by exact_mod_cast max_lt l.y.isLt r.y.isLt
  exact ⟨by omega, hhi.trans_lt hmax⟩

@[simp] theorem interpolate_left (l r : Breakpoint) : interpolate l r l.x = l.y.toNat := by simp [interpolate]

/-- The scan passes the entries at or below the query. -/
theorem bracket_of_passed (h : ∀ e ∈ mid ++ [l], e.x.toNat ≤ q.toNat) :
    bracket q p (mid ++ l :: rs) = bracket q l rs := by
  induction mid generalizing p with
  | nil => exact if_neg (Nat.not_lt.mpr (h l (by simp)))
  | cons m mid ih =>
    exact (if_neg (Nat.not_lt.mpr (h m (by simp)))).trans (ih fun e he => h e (List.mem_cons_of_mem _ he))

theorem bracket_of_above (h : q.toNat < r.x.toNat) : bracket q l (r :: rs) = some (l, r) := if_pos h

theorem lookup_of_last_le (hl : es.getLast? = some last) (hq : last.x.toNat ≤ q.toNat) :
    Table.lookup es q = .value 0 := by
  simp [Table.lookup, hl, hq]

/-- Before the last `x` the pair found by the scan decides. -/
theorem lookup_of_bracket (hl : (e :: rs).getLast? = some last) (hq : q.toNat < last.x.toNat)
    (hb : bracket q e rs = some (l, r)) :
    Table.lookup (e :: rs) q =
      if l.x.toNat ≤ q.toNat then .value (BitVec.ofInt Config.YW (interpolate l r q)) else .outside := by
  simp [Table.lookup, hl, hb, Nat.not_le.mpr hq]

theorem lookup_singleton (hq : q.toNat < e.x.toNat) : Table.lookup [e] q = .outside := by
  simp [Table.lookup, bracket, Nat.not_le.mpr hq]

/-- The pair found is the first whose right end, from index 1 on, is above the query. -/
theorem lookup_of_first_above (hl : (pre ++ l :: r :: post).getLast? = some last) (hq : q.toNat < last.x.toNat)
    (hpassed : ∀ e ∈ (pre ++ [l]).tail, e.x.toNat ≤ q.toNat) (hr : q.toNat < r.x.toNat) :
    Table.lookup (pre ++ l :: r :: post) q =
      if l.x.toNat ≤ q.toNat then .value (BitVec.ofInt Config.YW (interpolate l r q)) else .outside := by
  cases pre with
  | nil => exact lookup_of_bracket hl hq (bracket_of_above hr)
  | cons p mid => exact lookup_of_bracket hl hq ((bracket_of_passed hpassed).trans (bracket_of_above hr))

/-- R137: the entries before a node of a sorted table are passed, and the fraction there is 0. -/
theorem lookup_node (hs : Table.sorted (pre ++ e :: r :: post)) (h : e.x.toNat < r.x.toNat) :
    Table.lookup (pre ++ e :: r :: post) e.x = .value e.y := by
  obtain ⟨last, hl⟩ := exists_getLast? (es := pre ++ e :: r :: post) (by simp)
  have hrlast : r.x.toNat ≤ last.x.toNat := x_le_last hs hl (by simp)
  obtain ⟨-, -, hpre⟩ := List.pairwise_append.mp hs
  have hpassed : ∀ a ∈ pre ++ [e], a.x.toNat ≤ e.x.toNat := fun a ha => by
    obtain ha | ha := List.mem_append.mp ha
    · exact hpre a ha e (by simp)
    · rw [List.mem_singleton.mp ha]
  rw [lookup_of_first_above hl (by omega) (fun a ha => hpassed a (List.mem_of_mem_tail ha)) h, if_pos le_rfl,
    interpolate_left]
  simp

end Lookup

/-- A value that fits a register is the same in a wider field (R84). -/
theorem toResult_ofInt {v : Int} (h0 : 0 ≤ v) (hv : v < 2 ^ Config.YW) :
    toResult (BitVec.ofInt Config.YW v) = BitVec.ofInt 32 v := by
  lift v to Nat using h0
  have hv' : v < 2 ^ Config.YW := by exact_mod_cast hv
  apply BitVec.eq_of_toNat_eq
  simp only [toResult, BitVec.ofInt_natCast, BitVec.toNat_setWidth, BitVec.toNat_ofNat, Nat.mod_eq_of_lt hv']

/-! ## What each table command answers (R121 to R141) -/

section Answers

variable {k : Unit8} (hk : isTable k) {s : State} {last : Breakpoint}

section Builders

variable (x : XVal) (y : YVal) (n : Repeat)

theorem exec_tblPush_of_fits (h : (s.table ⟨k.toNat, hk⟩).length + 1 ≤ Config.CAP) :
    exec (.tblPush k x y) s = .next (s.setTable ⟨k.toNat, hk⟩ (s.table ⟨k.toNat, hk⟩ ++ [⟨x, y⟩])).done :=
  (onInstance_of_lt hk s _).trans (congrArg _ (if_neg (Nat.not_lt.mpr h)))

theorem exec_tblPush_of_full (h : Config.CAP < (s.table ⟨k.toNat, hk⟩).length + 1) :
    exec (.tblPush k x y) s = .next (s.raise .capacityExceeded) :=
  (onInstance_of_lt hk s _).trans (congrArg _ (if_pos h))

theorem exec_tblMirror_of_empty (h : s.table ⟨k.toNat, hk⟩ = []) :
    exec (.tblMirror k) s = .next (s.raise .emptyTable) :=
  (onInstance_of_lt hk s _).trans (by simp [h])

theorem exec_tblMirror_of_last (hl : (s.table ⟨k.toNat, hk⟩).getLast? = some last) :
    exec (.tblMirror k) s = .next (if Config.CAP < 2 * (s.table ⟨k.toNat, hk⟩).length - 1 then
      s.raise .capacityExceeded
    else (s.setTable ⟨k.toNat, hk⟩ ((s.table ⟨k.toNat, hk⟩).mirrored last.x)).done) :=
  (onInstance_of_lt hk s _).trans (by simp only [hl])

theorem exec_tblMirror_of_full (h : Config.CAP < 2 * (s.table ⟨k.toNat, hk⟩).length - 1) :
    exec (.tblMirror k) s = .next (s.raise .capacityExceeded) := by
  obtain ⟨last, hl⟩ := exists_getLast? (es := s.table ⟨k.toNat, hk⟩) (by omega)
  rw [exec_tblMirror_of_last hk hl, if_pos h]

theorem exec_tblMirror_of_fits (hl : (s.table ⟨k.toNat, hk⟩).getLast? = some last)
    (h : 2 * (s.table ⟨k.toNat, hk⟩).length - 1 ≤ Config.CAP) :
    exec (.tblMirror k) s = .next (s.setTable ⟨k.toNat, hk⟩ ((s.table ⟨k.toNat, hk⟩).mirrored last.x)).done := by
  rw [exec_tblMirror_of_last hk hl, if_neg (Nat.not_lt.mpr h)]

theorem exec_tblNplicate_of_empty (h : s.table ⟨k.toNat, hk⟩ = []) :
    exec (.tblNplicate k n) s = .next (s.raise .emptyTable) :=
  (onInstance_of_lt hk s _).trans (by simp [h])

theorem exec_tblNplicate_of_last (hl : (s.table ⟨k.toNat, hk⟩).getLast? = some last) :
    exec (.tblNplicate k n) s = .next (if Config.CAP < (s.table ⟨k.toNat, hk⟩).length * (n.toNat + 1) then
      s.raise .capacityExceeded
    else (s.setTable ⟨k.toNat, hk⟩ ((s.table ⟨k.toNat, hk⟩).nplicated last.x n.toNat)).done) :=
  (onInstance_of_lt hk s _).trans (by simp only [hl])

theorem exec_tblNplicate_of_full (h : Config.CAP < (s.table ⟨k.toNat, hk⟩).length * (n.toNat + 1)) :
    exec (.tblNplicate k n) s = .next (s.raise .capacityExceeded) := by
  obtain ⟨last, hl⟩ := exists_getLast? (Nat.pos_of_mul_pos_right (Nat.zero_lt_of_lt h))
  rw [exec_tblNplicate_of_last hk n hl, if_pos h]

theorem exec_tblNplicate_of_fits (hl : (s.table ⟨k.toNat, hk⟩).getLast? = some last)
    (h : (s.table ⟨k.toNat, hk⟩).length * (n.toNat + 1) ≤ Config.CAP) :
    exec (.tblNplicate k n) s =
      .next (s.setTable ⟨k.toNat, hk⟩ ((s.table ⟨k.toNat, hk⟩).nplicated last.x n.toNat)).done := by
  rw [exec_tblNplicate_of_last hk n hl, if_neg (Nat.not_lt.mpr h)]

end Builders

theorem exec_tblPop_of_empty (h : s.table ⟨k.toNat, hk⟩ = []) : exec (.tblPop k) s = .next (s.raise .emptyTable) :=
  (onInstance_of_lt hk s _).trans (by simp [h])

theorem exec_tblPop_of_last {es : Table} (h : s.table ⟨k.toNat, hk⟩ = es ++ [last]) :
    exec (.tblPop k) s =
      .next ((s.setTable ⟨k.toNat, hk⟩ es).respond .ok (toResult last.x) (toResult last.y)) :=
  (onInstance_of_lt hk s _).trans (by simp [h])

section Interp

variable {q : XVal} {y : YVal}

theorem exec_tblInterp_of_empty (h : s.table ⟨k.toNat, hk⟩ = []) (q : XVal) :
    exec (.tblInterp k q) s = .next (s.raise .emptyTable) :=
  (onInstance_of_lt hk s _).trans (by simp [h])

theorem exec_tblInterp_of_value (h : Table.lookup (s.table ⟨k.toNat, hk⟩) q = .value y) :
    exec (.tblInterp k q) s = .next (s.respond .ok (toResult y) 0) :=
  (onInstance_of_lt hk s _).trans (by simp only [h])

theorem exec_tblInterp_of_outside (h : Table.lookup (s.table ⟨k.toNat, hk⟩) q = .outside) :
    exec (.tblInterp k q) s =
      .next (({ s with draws := s.draws + 1 } : State).respond .ok (toResult (Config.anyYW s.draws)) 0) :=
  (onInstance_of_lt hk s _).trans (by simp only [h])

end Interp

end Answers

/-! ## The obligations -/

/-- Settles O31: the command runs on the table its index names. -/
theorem tblInitEmptiesTheTable : Obligations.TblInitEmptiesTheTable :=
  fun _ hk s => ⟨onInstance_of_lt hk s _, rfl⟩

/-- Settles O32, by the two sides of the capacity test. -/
theorem tblPushAppendsOrFaults : Obligations.TblPushAppendsOrFaults :=
  fun _ hk x y _ => ⟨exec_tblPush_of_fits hk x y, exec_tblPush_of_full hk x y, rfl⟩

/-- Settles O33: the table built is `Table.mirrored`, whose entries are known. -/
theorem tblMirrorAppendsTheReflection : Obligations.TblMirrorAppendsTheReflection := by
  refine fun k hk s => ⟨exec_tblMirror_of_empty hk, exec_tblMirror_of_full hk, fun last hl hfits =>
    ⟨_, exec_tblMirror_of_fits hk hl hfits, ?_, fun i hi => ?_, fun j hj => mirrored_getElem?_reflected hj⟩, rfl⟩
  · rw [mirrored_length]
    omega
  · rw [sameEntry, mirrored_getElem?_old hi]
    exact Option.map_id'.symm

/-- Settles O34: the table built is `Table.nplicated`, whose copies are known. -/
theorem tblNplicateRepeatsTheSequence : Obligations.TblNplicateRepeatsTheSequence :=
  fun _ hk n _ => ⟨exec_tblNplicate_of_empty hk n, exec_tblNplicate_of_full hk n, fun _ hl hfits =>
    ⟨_, exec_tblNplicate_of_fits hk n hl hfits, nplicated_length .., fun _ hj _ hi => nplicated_getElem? hj hi⟩, rfl⟩

/-- Settles O35, from the order within and across the parts of a built table. -/
theorem buildersKeepTheOrder : Obligations.BuildersKeepTheOrder := by
  refine fun es first last hf hl hs =>
    ⟨fun hP => ⟨mirrored_sorted hs hl hP, mirrored_getLast? hs hl hP hf, fun e he => ?_⟩,
      fun n hP => (nplicated_sorted_and_le hs hl hP).1⟩
  exact ⟨_, mem_mirrored_reflect he, reflect_last_x_toNat hs hl hP (List.mem_of_mem_dropLast he), rfl⟩

/-- Settles O37: the scan finds the pair, and its value fits the register. -/
theorem interpBetweenTwoBreakpoints : Obligations.InterpBetweenTwoBreakpoints := by
  refine fun k hk q s => ⟨fun pre post l r last hes hlast hq hpassed hl hr => ?_, rfl⟩
  rw [hes] at hlast
  obtain ⟨hnonneg, hlt⟩ := interpolate_fits hl hr
  have hvalue : Table.lookup (s.table ⟨k.toNat, hk⟩) q = .value (BitVec.ofInt Config.YW (interpolate l r q)) := by
    rw [hes, lookup_of_first_above hlast hq hpassed hr, if_pos hl]
  rw [exec_tblInterp_of_value hk hvalue, toResult_ofInt hnonneg hlt]
  rfl

/-- Settles O38, by the bound on the fraction of the difference. -/
theorem interpolationStaysBetween : Obligations.InterpolationStaysBetween := fun _ _ _ => interpolate_between

/-- Settles O39: the scan stops at the node. -/
theorem interpAtANodeIsExact : Obligations.InterpAtANodeIsExact := by
  intro k hk s pre post e r hes hs hlt
  rw [hes] at hs
  exact exec_tblInterp_of_value hk (by rw [hes, lookup_node hs hlt])

/-- Settles O40: the test against the last `x` comes before the scan. -/
theorem interpAtOrBeyondTheEndIsZero : Obligations.InterpAtOrBeyondTheEndIsZero :=
  fun _ hk _ _ _ hl hq => exec_tblInterp_of_value hk (lookup_of_last_le hl hq)

/-- Settles O41: the scan stops at the first pair, or finds none. -/
theorem interpOutsideTheContractIsFree : Obligations.InterpOutsideTheContractIsFree := by
  refine fun k hk q s => ⟨fun post l r last hes hlast hq hr hl => ?_, fun e hes hq => ?_⟩
  · rw [hes] at hlast
    exact exec_tblInterp_of_outside hk
      (by rw [hes, lookup_of_bracket hlast hq (bracket_of_above hr), if_neg (Nat.not_le.mpr hl)])
  · exact exec_tblInterp_of_outside hk (by rw [hes, lookup_singleton hq])

/-- Settles O42: the table ends with the entry, or has none. -/
theorem tblPopRemovesTheLastEntry : Obligations.TblPopRemovesTheLastEntry :=
  fun _ hk _ => ⟨fun _ _ => exec_tblPop_of_last hk, exec_tblPop_of_empty hk, rfl⟩

/-- Settles O43, from how a table command can end: no rule writes a table for `TBL.INTERP`. -/
theorem tableCommandsFrame : Obligations.TableCommandsFrame := by
  intro i s t hi h
  obtain ⟨hchans, hseqs, hport, hdrive, hclocks, hinputs, -⟩ := tableCommand_frame hi h
  refine ⟨hchans, hseqs, hport, hdrive, hclocks, hinputs,
    fun k hk => (exec_table h k).resolve_right fun hw => hk hw.1.symm, fun hinterp => ?_⟩
  obtain ⟨n, st, r0, r1⟩ | ⟨k, es, r0, r1, -, hrule⟩ := tableCommand_outcome hi h
  · rfl
  · have := hrule.opcode
    simp [hinterp] at this

end Sys2Proof.Machine

namespace Sys2Proof.Machine

/-! ## The catch-up of the phase anchor (R153, R155) -/

section CatchUp

variable {P : XVal} {now a : Ms}

/-- The remainder of an elapsed count fits the register, whatever the width of the divisor. -/
theorem toNat_ofNat_mod (v : Ms) (p : Nat) : (BitVec.ofNat Config.MW (v.toNat % p)).toNat = v.toNat % p := by
  rw [BitVec.toNat_ofNat, Nat.mod_eq_of_lt ((Nat.mod_le _ _).trans_lt v.isLt)]

/-- A pass of the loop takes one period off the count that remains, without a wrap. -/
theorem toNat_sub_add_period (h : P.toNat ≤ (now - a).toNat) :
    (now - (a + P.setWidth _)).toNat = (now - a).toNat - P.toNat := by
  have hP : (P.setWidth Config.MW).toNat = P.toNat :=
    (BitVec.toNat_setWidth ..).trans (Nat.mod_eq_of_lt (h.trans_lt (now - a).isLt))
  rw [← sub_sub, BitVec.toNat_sub_of_le (BitVec.le_def.mpr (hP.symm ▸ h)), hP]

/-- An anchor within a period of `now` is one the catch-up leaves. -/
theorem sub_mod_of_lt (h : (now - a).toNat < P.toNat) :
    now - BitVec.ofNat Config.MW ((now - a).toNat % P.toNat) = a := by
  rw [Nat.mod_eq_of_lt h, BitVec.ofNat_toNat, BitVec.setWidth_eq, sub_sub_cancel]

/-- R155: with fuel for the whole periods that have passed, the loop ends at the remainder before `now`. -/
theorem catchUp_eq_sub_mod (hP : 0 < P.toNat) {fuel : Nat} (hfuel : (now - a).toNat / P.toNat ≤ fuel) :
    catchUp P now fuel a = now - BitVec.ofNat Config.MW ((now - a).toNat % P.toNat) := by
  induction fuel generalizing a with
  | zero => exact (sub_mod_of_lt ((Nat.div_eq_zero_iff_lt hP).mp (Nat.le_zero.mp hfuel))).symm
  | succ fuel ih =>
    by_cases h : P.toNat ≤ (now - a).toNat
    · have hrest : (now - (a + P.setWidth _)).toNat / P.toNat ≤ fuel := by
        rw [Nat.div_eq_sub_div hP h] at hfuel
        rw [toNat_sub_add_period h]
        exact Nat.le_of_succ_le_succ hfuel
      rw [catchUp, if_pos h, ih hrest, toNat_sub_add_period h, ← Nat.mod_eq_sub_mod h]
    · rw [catchUp, if_neg h, sub_mod_of_lt (Nat.not_le.mp h)]

/-- The phase after the catch-up. -/
theorem sub_caughtUp (q : Seq) (P : XVal) (now : Ms) :
    now - q.caughtUp P now = BitVec.ofNat Config.MW ((now - q.anchor).toNat % P.toNat) := sub_sub_cancel ..

/-- A throttle tick of the model is the one of R153, R155 and R156. -/
theorem ticked_eq_rule (q : Seq) (es : Table) (P : XVal) (now : Ms) (y : YVal) :
    q.ticked es P now y = tickRule q es P now y := by
  rw [Seq.ticked, sub_caughtUp]
  rfl

end CatchUp

/-! ## One poll of a sequencer (R152 to R158) -/

section LedPoll

variable {s : State} {d : Fin Config.NLED} {k : Fin Config.NTBL} {last : Breakpoint} (go : State → State)

theorem throttled_of_lt {q : Seq} {now : Ms} (h : (now - q.lastUpd).toNat < Config.THROTTLE_MS) :
    q.throttled now = true := decide_eq_true h

theorem throttled_of_le {q : Seq} {now : Ms} (h : Config.THROTTLE_MS ≤ (now - q.lastUpd).toNat) :
    q.throttled now = false := decide_eq_false (Nat.not_lt.mpr h)

theorem ledPollBody_of_between (h : (s.clkMs.now - (s.seq d).lastUpd).toNat < Config.THROTTLE_MS) :
    s.ledPollBody d k go = go (s.sampledMs.pollEmbedded d) := by
  simp only [State.ledPollBody, Seq.tick, throttled_of_lt h, if_true]

theorem ledPollBody_of_tick (h : Config.THROTTLE_MS ≤ (s.clkMs.now - (s.seq d).lastUpd).toNat)
    (hl : (s.table k).getLast? = some last) (hx : last.x ≠ 0) :
    s.ledPollBody d k go =
      go ((s.sampledMs.setSeq d
        ((s.seq d).ticked (s.table k) last.x s.clkMs.now (Config.anyYW s.draws))).pollEmbedded d) := by
  simp only [State.ledPollBody, Seq.tick, throttled_of_le h, hl, if_neg hx, Bool.false_eq_true, if_false]

theorem ledPollBody_of_period_zero (h : Config.THROTTLE_MS ≤ (s.clkMs.now - (s.seq d).lastUpd).toNat)
    (hl : (s.table k).getLast? = some last) (hx : last.x = 0) : s.ledPollBody d k go = s.sampledMs.hang := by
  simp [State.ledPollBody, Seq.tick, throttled_of_le h, hl, hx]

/-- On a table of a period that is not 0 the body neither faults nor hangs: it comes to its end, whatever that is. -/
theorem ledPollBody_eq_go (hl : (s.table k).getLast? = some last) (hx : last.x ≠ 0) :
    s.ledPollBody d k go = go (s.ledPollBody d k id) := by
  by_cases h : (s.clkMs.now - (s.seq d).lastUpd).toNat < Config.THROTTLE_MS
  · rw [ledPollBody_of_between go h, ledPollBody_of_between id h, id]
  · have htick := Nat.not_lt.mp h
    rw [ledPollBody_of_tick go htick hl hx, ledPollBody_of_tick id htick hl hx, id]

/-- A poll that comes to its end writes its own sequencer only. -/
theorem ledPollBody_id_pollFrame (s : State) (d : Fin Config.NLED) (k : Fin Config.NTBL) :
    SeqPollFrame d s (s.ledPollBody d k id) :=
  ledPollBody_pollFrame s d k fun _ => .of_eq d rfl rfl rfl ⟨rfl, rfl⟩

end LedPoll

/-! ## What `LED.POLL` and `LED.CYCLE` run -/

section Commands

variable {d tbl : Unit8} (hd : isSequencer d) (ht : isTable tbl) (s : State)

theorem exec_ledPoll :
    exec (.ledPoll d tbl) s = .next (s.ledPollBody ⟨d.toNat, hd⟩ ⟨tbl.toNat, ht⟩ State.done) :=
  (onInstance_of_lt hd s _).trans (by simp only [instanceOf_of_lt ht])

theorem exec_ledPoll_of_fin (d : Fin Config.NLED) (k : Fin Config.NTBL) (s : State) :
    exec (.ledPoll (BitVec.ofNat 8 d) (BitVec.ofNat 8 k)) s = .next (s.ledPollBody d k State.done) := by
  have hd : (BitVec.ofNat 8 d).toNat = d := Nat.mod_eq_of_lt (d.isLt.trans (by decide))
  have hk : (BitVec.ofNat 8 k).toNat = k := Nat.mod_eq_of_lt (k.isLt.trans (by decide))
  rw [exec_ledPoll (d := BitVec.ofNat 8 d) (tbl := BitVec.ofNat 8 k) (hd.trans_lt d.isLt) (hk.trans_lt k.isLt)]
  simp only [hd, hk]

theorem exec_ledCycle {last : Breakpoint} (N : Ms) (hl : (s.table ⟨tbl.toNat, ht⟩).getLast? = some last) :
    exec (.ledCycle d tbl N) s = .next (s.sampledMs.cyclePass
      { d := ⟨d.toNat, hd⟩, t := ⟨tbl.toNat, ht⟩, t0 := s.clkMs.now, target := cycleTarget N last.x }) :=
  (onInstance_of_lt hd s _).trans (by simp only [instanceOf_of_lt ht, hl])

end Commands

/-! ## The loop of `LED.CYCLE`, and a hang (R160, R161, R157) -/

section Loop

variable {s : State} {j : CycleJob} {last : Breakpoint}

/-- A pass before the target is the poll that `LED.POLL` would make, and the loop goes on. -/
theorem cyclePass_goes_on (h : (s.clkMs.now - j.t0).toNat < j.target.toNat)
    (hl : (s.table j.t).getLast? = some last) (hx : last.x ≠ 0) :
    s.cyclePass j = (s.sampledMs.ledPollBody j.d j.t id).busy (.cycling j) := by
  rw [cyclePass_of_not_reached h]
  exact ledPollBody_eq_go (s := s.sampledMs) _ hl hx

/-- R161 (3): on a table of a period that is not 0 a pass ends the command with `OK`, or the loop goes on. -/
theorem cyclePass_cases (hl : (s.table j.t).getLast? = some last) (hx : last.x ≠ 0) :
    s.cyclePass j = s.sampledMs.done ∨ ∃ u : State, s.cyclePass j = u.busy (.cycling j) := by
  by_cases h : j.target.toNat ≤ (s.clkMs.now - j.t0).toNat
  · exact .inl (cyclePass_of_reached h)
  · exact .inr ⟨_, cyclePass_goes_on (Nat.not_le.mp h) hl hx⟩

theorem blockStep_of_hung (h : s.activity = .hung) : blockStep s = .next s.quiet := by
  simp only [blockStep, h]

end Loop

/-! ## The obligations -/

/-- Settles O54: the invariant keeps the table of the loop at a period that is not 0, so that a pass ends or goes on. -/
theorem cycleNeverHangsNorFaults : Obligations.CycleNeverHangsNorFaults := by
  rintro s t j ⟨-, hsound⟩ hj h
  obtain ⟨hresp, last, hl, hx⟩ := (activitySound_cycling_iff hj).mp hsound
  obtain ⟨hu, -⟩ | ⟨es, henv, rfl⟩ | ⟨m, v, es, -, rfl⟩ := step_next h
  · obtain rfl : s.turn.cyclePass j = t := Host.Outcome.next.inj ((step_of_cycling hu hj).symm.trans h)
    obtain e | ⟨u, e⟩ := cyclePass_cases (s := s.turn) hl hx <;> rw [e]
    · exact .inr ⟨rfl, .inl rfl⟩
    · exact .inl ⟨rfl, rfl⟩
  · exact .inr ⟨rfl, .inr ⟨es, henv⟩⟩
  · exact .inl ⟨hj, hresp⟩

/-- Settles O46: the throttle lets the poll through to the embedded channel. -/
theorem ledPollBetweenTicks : Obligations.LedPollBetweenTicks := by
  refine fun d tbl hd ht s => ⟨fun h => ?_, rfl⟩
  rw [exec_ledPoll hd ht, ledPollBody_of_between _ h, pollEmbedded_eq_rule]
  rfl

/-- Settles O47: the tick writes the registers of R153, and the embedded poll runs on them. -/
theorem ledPollOnATick : Obligations.LedPollOnATick := by
  intro d tbl hd ht s last h hl hx
  rw [exec_ledPoll hd ht, ledPollBody_of_tick _ h hl hx, pollEmbedded_setSeq, ticked_eq_rule]
  rfl

/-- Settles O48, by induction on the fuel: each pass takes one period off the count. -/
theorem catchUpLoopEndsWithinOnePeriod : Obligations.CatchUpLoopEndsWithinOnePeriod := by
  intro q P now fuel hP hfuel
  have hpos : 0 < P.toNat := Nat.pos_of_ne_zero (BitVec.toNat_ne.mp hP)
  rw [sub_caughtUp, toNat_ofNat_mod]
  exact ⟨catchUp_eq_sub_mod hpos hfuel, rfl, Nat.mod_lt _ hpos⟩

/-- Settles O49: the tick finds the period 0 before it writes. -/
theorem ledPollOnAPeriodOfZeroHangs : Obligations.LedPollOnAPeriodOfZeroHangs := by
  intro d tbl hd ht s last h hl hx
  rw [exec_ledPoll hd ht, ledPollBody_of_period_zero _ h hl hx]
  rfl

/-- Settles O50: the step of a hung block only drops its mask outputs, and another agent writes only `PORT`. -/
theorem onlyResetEndsAHang : Obligations.OnlyResetEndsAHang := by
  intro s t hact hresp h
  obtain ⟨-, hblock⟩ | ⟨es, henv, rfl⟩ | ⟨m, v, es, -, rfl⟩ := step_next h
  · have hquiet := blockStep_of_hung (s := { s with env := s.env.tail }) hact
    obtain rfl := Host.Outcome.next.inj (hquiet.symm.trans hblock)
    exact .inr ⟨hact, hresp, rfl, rfl, rfl, rfl, ⟨rfl, rfl⟩, rfl⟩
  · exact .inl ⟨es, henv, rfl⟩
  · exact .inr ⟨hact, hresp, rfl, rfl, rfl, rfl, ⟨rfl, rfl⟩, rfl⟩

/-- Settles O51: the first pass of the loop finds the target reached. -/
theorem ledCycleEndsAtItsTarget : Obligations.LedCycleEndsAtItsTarget := by
  refine fun d tbl hd ht N s => ⟨fun last hl h => ?_, rfl⟩
  exact (exec_ledCycle hd ht s N hl).trans (congrArg _ (cyclePass_of_reached h))

/-- Settles O52: the target is above 0, so the period is not 0, and the first pass of the loop is a poll. -/
theorem ledCycleGoesOnBeforeItsTarget : Obligations.LedCycleGoesOnBeforeItsTarget := by
  intro d tbl hd ht N s last hl h
  have hx : last.x ≠ 0 := fun hx => by simp [hx] at h
  have hpoll := ledPollBody_eq_go (s := s.pastMs.pastMs) (d := ⟨d.toNat, hd⟩) State.done hl hx
  exact ⟨_, (exec_ledPoll hd ht _).trans (congrArg _ hpoll),
    (exec_ledCycle hd ht s N hl).trans (congrArg _ (cyclePass_goes_on h hl hx))⟩

/-- Settles O53, by the two sides of the loop test. -/
theorem cycleLeavesTheLoopAtTheTarget : Obligations.CycleLeavesTheLoopAtTheTarget := by
  rintro s j ⟨-, hsound⟩ hu hj
  obtain ⟨-, last, hl, hx⟩ := (activitySound_cycling_iff hj).mp hsound
  rw [step_of_cycling hu hj]
  refine ⟨fun h => congrArg _ (cyclePass_of_reached h), fun h => ?_⟩
  have hframe := ledPollBody_id_pollFrame s.turn.sampledMs j.d j.t
  refine ⟨(s.turn.sampledMs.ledPollBody j.d j.t id).done, ?_, rfl, ?_, hframe.inputs.1, hframe.tables, hframe.chans⟩
  · rw [exec_ledPoll_of_fin]
    exact congrArg _ (ledPollBody_eq_go (s := s.turn.sampledMs) _ hl hx)
  · exact congrArg _ (cyclePass_goes_on (s := s.turn) h hl hx)

/-- Settles O45: the command runs on the sequencer its index names. -/
theorem ledInitBuildsTheSequencer : Obligations.LedInitBuildsTheSequencer :=
  fun _ hd _ _ s => ⟨onInstance_of_lt hd s _, rfl⟩

end Sys2Proof.Machine

namespace Sys2Proof.Machine

/-! ## Tables written as numbers (43_presets.md R170, R171)

The assembler computes over the natural numbers, and the presets' rules list their entries so; `tableOf` is the table
that pushing such a list leaves. -/

/-- The numbers of a breakpoint fit the operands of `TBL.PUSH`. -/
abbrev NumbersFit (p : Nat × Nat) : Prop := p.1 < 2 ^ Config.XW ∧ p.2 < 2 ^ Config.YW

/-- The breakpoint with the given numbers. -/
def breakpointOf (p : Nat × Nat) : Breakpoint := { x := BitVec.ofNat _ p.1, y := BitVec.ofNat _ p.2 }

/-- The table with the given numbers. -/
def tableOf (ps : List (Nat × Nat)) : Table := ps.map breakpointOf

/-- The numbers of a breakpoint. -/
def Breakpoint.numbers (e : Breakpoint) : Nat × Nat := (e.x.toNat, e.y.toNat)

/-- The command that appends a breakpoint. -/
def pushOf (k : Unit8) (e : Breakpoint) : Instr := .tblPush k e.x e.y

section Numbers

variable {k : Unit8} {p : Nat × Nat} {ps : List (Nat × Nat)} {P i j n : Nat}

@[simp] theorem tableOf_length (ps : List (Nat × Nat)) : (tableOf ps).length = ps.length := List.length_map ..

theorem breakpointOf_toNat (h : NumbersFit p) :
    (breakpointOf p).x.toNat = p.1 ∧ (breakpointOf p).y.toNat = p.2 :=
  ⟨Nat.mod_eq_of_lt h.1, Nat.mod_eq_of_lt h.2⟩

theorem numbers_breakpointOf (h : NumbersFit p) : (breakpointOf p).numbers = p :=
  Prod.ext_iff.mpr (breakpointOf_toNat h)

theorem operand_of_lt {v : Nat} (h : v < 2 ^ n) : operand n v = some (BitVec.ofNat n v) := if_pos h

theorem pushNat_of_fits (h : NumbersFit p) : pushNat k p = some (pushOf k (breakpointOf p)) := by
  rw [pushNat, operand_of_lt h.1, operand_of_lt h.2]
  rfl

theorem mapM_pushNat_of_fits (h : ∀ p ∈ ps, NumbersFit p) :
    ps.mapM (pushNat k) = some ((tableOf ps).map (pushOf k)) := by
  induction ps with
  | nil => rfl
  | cons p ps ih =>
    rw [List.mapM_cons, pushNat_of_fits (h p List.mem_cons_self), ih fun q hq => h q (List.mem_cons_of_mem _ hq)]
    rfl

/-- R171: a list of numbers that fit becomes one `TBL.PUSH` per pair. -/
theorem pushN_of_fits (hne : ps ≠ []) (h : ∀ p ∈ ps, NumbersFit p) :
    pushN k ps = some ((tableOf ps).map (pushOf k)) := by
  cases ps with
  | nil => exact absurd rfl hne
  | cons p ps => exact mapM_pushNat_of_fits h

theorem numbers_reflect (h : NumbersFit p) (hP : 2 * P < 2 ^ Config.XW) (hle : p.1 ≤ P) :
    ((breakpointOf p).reflect (BitVec.ofNat _ P)).numbers = (2 * P - p.1, p.2) := by
  have hPnat : (BitVec.ofNat Config.XW P).toNat = P := Nat.mod_eq_of_lt (by omega)
  obtain ⟨hx, hy⟩ := breakpointOf_toNat h
  refine Prod.ext ?_ hy
  exact (reflect_x_toNat (by rwa [hPnat]) (by rwa [hPnat, hx])).trans (by rw [hPnat, hx])

theorem numbers_shift (h : NumbersFit p) (hP : P < 2 ^ Config.XW) (hlt : p.1 + j * P < 2 ^ Config.XW) :
    ((breakpointOf p).shift (BitVec.ofNat _ P) j).numbers = (p.1 + j * P, p.2) := by
  have hPnat : (BitVec.ofNat Config.XW P).toNat = P := Nat.mod_eq_of_lt hP
  obtain ⟨hx, hy⟩ := breakpointOf_toNat h
  refine Prod.ext ?_ hy
  exact (shift_x_toNat (by rwa [hPnat, hx])).trans (by rw [hPnat, hx])

/-- The entries of a repeated table, as numbers (R130). -/
theorem nplicated_tableOf_numbers (h : ∀ p ∈ ps, NumbersFit p) (hP : P < 2 ^ Config.XW) (hj : j ≤ n)
    (hi : i < ps.length) (hlt : ∀ p ∈ ps, p.1 + j * P < 2 ^ Config.XW) :
    (((tableOf ps).nplicated (BitVec.ofNat _ P) n)[j * ps.length + i]?).map Breakpoint.numbers =
      (ps[i]?).map (fun p => (p.1 + j * P, p.2)) := by
  rw [← tableOf_length ps] at hi ⊢
  rw [nplicated_getElem? hj hi, tableOf, List.getElem?_map, Option.map_map, Option.map_map]
  refine Option.map_congr fun p hp => ?_
  have hmem := List.mem_of_getElem? hp
  exact numbers_shift (h p hmem) hP (hlt p hmem)

end Numbers

/-! ## The host issues an expansion (R170) -/

section Issue

variable {k : Unit8} (hk : isTable k) {i : Instr} {s : State} {is : List Instr} {es : Table} {last : Breakpoint}

/-- A command that answers `OK` and builds a table hands over to the next. -/
theorem issue_of_built {r0 r1 : Slot} (h : exec i s = .next ((s.setTable ⟨k.toNat, hk⟩ es).respond .ok r0 r1)) :
    ∃ t, issue (i :: is) s = issue is t ∧ t.answeredOk = true ∧ t.table ⟨k.toNat, hk⟩ = es := by
  refine ⟨(s.setTable ⟨k.toNat, hk⟩ es).respond .ok r0 r1, ?_, rfl, table_setTable_self s ⟨k.toNat, hk⟩ es⟩
  rw [issue, h]
  rfl

/-- Pushes append their breakpoints while there is room. -/
theorem issue_pushes (es : Table) (is : List Instr) (hok : s.answeredOk = true)
    (hroom : (s.table ⟨k.toNat, hk⟩).length + es.length ≤ Config.CAP) :
    ∃ t, issue (es.map (pushOf k) ++ is) s = issue is t ∧ t.answeredOk = true ∧
      t.table ⟨k.toNat, hk⟩ = s.table ⟨k.toNat, hk⟩ ++ es := by
  induction es generalizing s with
  | nil => exact ⟨s, rfl, hok, (List.append_nil _).symm⟩
  | cons e es ih =>
    rw [List.length_cons] at hroom
    obtain ⟨t, ht, htok, httab⟩ := issue_of_built hk (exec_tblPush_of_fits hk e.x e.y (s := s) (by omega))
    obtain ⟨u, hu, huok, hutab⟩ := ih htok (by rw [httab, List.length_append, List.length_singleton]; omega)
    exact ⟨u, ht.trans hu, huok, by rw [hutab, httab, List.append_assoc, List.singleton_append]⟩

/-- How every preset begins: `TBL.INIT` and then pushes leave the table pushed. -/
theorem issue_init_pushes (s : State) (es : Table) (is : List Instr) (hroom : es.length ≤ Config.CAP) :
    ∃ t, issue (.tblInit k :: es.map (pushOf k) ++ is) s = issue is t ∧ t.answeredOk = true ∧
      t.table ⟨k.toNat, hk⟩ = es := by
  have hinit : exec (.tblInit k) s = .next (s.setTable ⟨k.toNat, hk⟩ []).done := onInstance_of_lt hk s _
  obtain ⟨t, ht, htok, httab⟩ := issue_of_built hk hinit
  obtain ⟨u, hu, huok, hutab⟩ := issue_pushes hk es is htok (by rwa [httab, List.length_nil, Nat.zero_add])
  exact ⟨u, ht.trans hu, huok, by rw [hutab, httab, List.nil_append]⟩

/-- How `MK.BLINK` ends: the table is repeated, and its last entry replaced. -/
theorem issue_nplicate_pop_push (n : Repeat) (e : Breakpoint) (htab : s.table ⟨k.toNat, hk⟩ = es)
    (hl : es.getLast? = some last) (hroom : es.length * (n.toNat + 1) ≤ Config.CAP) :
    ∃ t, issue [.tblNplicate k n, .tblPop k, pushOf k e] s = .next t ∧ t.answeredOk = true ∧
      t.table ⟨k.toNat, hk⟩ = (es.nplicated last.x n.toNat).dropLast ++ [e] := by
  subst htab
  have hne : (s.table ⟨k.toNat, hk⟩).nplicated last.x n.toNat ≠ [] :=
    List.append_ne_nil_of_left_ne_nil (List.ne_nil_of_mem (List.mem_of_getLast? hl)) _
  obtain ⟨t, ht, -, httab⟩ := issue_of_built hk (exec_tblNplicate_of_fits hk n hl hroom)
  obtain ⟨u, hu, -, hutab⟩ :=
    issue_of_built hk (exec_tblPop_of_last hk (httab.trans (List.dropLast_append_getLast hne).symm))
  obtain ⟨v, hv, hvok, hvtab⟩ := issue_of_built hk (exec_tblPush_of_fits hk e.x e.y (s := u) (by
    rwa [hutab, List.length_dropLast, Nat.sub_add_cancel (List.length_pos_of_ne_nil hne), nplicated_length]))
  exact ⟨v, ht.trans (hu.trans hv), hvok, by rw [hvtab, hutab]⟩

end Issue

/-! ## The presets (R172 to R175) -/

/-- R172, R173: the numbers of a constant preset of level `y`. -/
def constantPreset (y : Nat) : List (Nat × Nat) := [(0, y), (Config.CONST_PERIOD, y)]

/-- R174: the numbers `MK.BREATHE` pushes, which it then mirrors. -/
def breatheRise (P : Nat) : List (Nat × Nat) := [(0, 0), (P / 8, 0), (P / 3, 30), (P / 2, 100)]

/-- R175: the numbers of one pulse of `MK.BLINK`, which it then repeats. -/
def blinkPulse (on off : Nat) : List (Nat × Nat) := [(0, 100), (on, 100), (on, 0), (on + off, 0)]

theorem mkOn_eq (k : Unit8) : mkOn k = some (.tblInit k :: (tableOf (constantPreset 100)).map (pushOf k) ++ []) := by
  rw [mkOn, ← constantPreset, pushN_of_fits (by decide) (by decide), List.append_nil]
  rfl

theorem mkOff_eq (k : Unit8) : mkOff k = some (.tblInit k :: (tableOf (constantPreset 0)).map (pushOf k) ++ []) := by
  rw [mkOff, ← constantPreset, pushN_of_fits (by decide) (by decide), List.append_nil]
  rfl

section Breathe

variable {P : Nat} (hP : P < 2 ^ Config.XW)
include hP

theorem breatheRise_fits : ∀ p ∈ breatheRise P, NumbersFit p := by
  have hlevel : 100 < 2 ^ Config.YW := by decide
  simp only [breatheRise, List.forall_mem_cons, List.not_mem_nil, false_implies, implies_true, and_true, NumbersFit]
  omega

theorem mkBreathe_eq (k : Unit8) :
    mkBreathe k P = some (.tblInit k :: (tableOf (breatheRise P)).map (pushOf k) ++ [.tblMirror k]) := by
  rw [mkBreathe, ← breatheRise, pushN_of_fits (ps := breatheRise P) (List.cons_ne_nil _ _) (breatheRise_fits hP)]
  rfl

/-- R174, R126: the rise mirrored about its last `x`, which is `P / 2`. -/
theorem mirrored_breatheRise_numbers :
    ((tableOf (breatheRise P)).mirrored (BitVec.ofNat _ (P / 2))).map Breakpoint.numbers =
      [(0, 0), (P / 8, 0), (P / 3, 30), (P / 2, 100), (2 * (P / 2) - P / 3, 30), (2 * (P / 2) - P / 8, 0),
        (2 * (P / 2), 0)] := by
  have hfits := breatheRise_fits hP
  have hold : ∀ p ∈ breatheRise P, (breakpointOf p).numbers = p := fun p hp => numbers_breakpointOf (hfits p hp)
  have hnew : ∀ p ∈ breatheRise P, p.1 ≤ P / 2 →
      ((breakpointOf p).reflect (BitVec.ofNat _ (P / 2))).numbers = (2 * (P / 2) - p.1, p.2) :=
    fun p hp hle => numbers_reflect (hfits p hp) (by omega) hle
  have h3 : P / 3 ≤ P / 2 := by omega
  have h8 : P / 8 ≤ P / 2 := by omega
  simp only [breatheRise, List.forall_mem_cons, List.not_mem_nil, false_implies, implies_true] at hold hnew
  simp [breatheRise, tableOf, Table.mirrored, hold, hnew, h3, h8]

end Breathe

section Blink

variable {N on off pause : Nat} (hN : 1 ≤ N) (hend : N * (on + off) + pause < 2 ^ Config.XW)
include hN hend

/-- The pulse ends before the preset does. -/
theorem blinkPulse_period_lt : on + off < 2 ^ Config.XW :=
  (Nat.le_mul_of_pos_left (on + off) hN).trans_lt ((Nat.le_add_right ..).trans_lt hend)

theorem blinkPulse_fits : ∀ p ∈ blinkPulse on off, NumbersFit p := by
  have hperiod := blinkPulse_period_lt hN hend
  have hlevel : 100 < 2 ^ Config.YW := by decide
  simp only [blinkPulse, List.forall_mem_cons, List.not_mem_nil, false_implies, implies_true, and_true, NumbersFit]
  omega

theorem mkBlink_eq (k : Unit8) (hn : N - 1 < 2 ^ Config.NW) :
    mkBlink k N on off pause = some (.tblInit k :: (tableOf (blinkPulse on off)).map (pushOf k) ++
      [.tblNplicate k (BitVec.ofNat _ (N - 1)), .tblPop k, pushOf k (breakpointOf (N * (on + off) + pause, 0))]) := by
  rw [mkBlink, if_neg (Nat.ne_of_gt hN), ← blinkPulse,
    pushN_of_fits (ps := blinkPulse on off) (List.cons_ne_nil _ _) (blinkPulse_fits hN hend), operand_of_lt hn,
    pushNat_of_fits ⟨hend, Nat.two_pow_pos _⟩]
  rfl

/-- The table `MK.BLINK` leaves: the pulse repeated at its period, its last entry replaced by the end of the pause. -/
def blinkTable (N on off pause : Nat) : Table :=
  ((tableOf (blinkPulse on off)).nplicated (BitVec.ofNat _ (on + off)) (N - 1)).dropLast ++
    [breakpointOf (N * (on + off) + pause, 0)]

omit hend in
theorem repeatedPulse_length (P : XVal) : ((tableOf (blinkPulse on off)).nplicated P (N - 1)).length = 4 * N := by
  rw [nplicated_length, tableOf_length, Nat.sub_add_cancel hN]
  rfl

omit hend in
theorem blinkTable_length : (blinkTable N on off pause).length = 4 * N := by
  rw [blinkTable, List.length_append, List.length_dropLast, repeatedPulse_length hN, List.length_singleton]
  omega

omit hN in
theorem blinkTable_last_numbers :
    (blinkTable N on off pause).getLast?.map Breakpoint.numbers = some (N * (on + off) + pause, 0) := by
  rw [blinkTable, List.getLast?_concat]
  exact congrArg some (numbers_breakpointOf ⟨hend, Nat.two_pow_pos _⟩)

theorem blinkTable_entry_numbers {i j : Nat} (hj : j < N) (hi : i < 4) (hlt : 4 * j + i + 1 < 4 * N) :
    (blinkTable N on off pause)[4 * j + i]?.map Breakpoint.numbers =
      (blinkPulse on off)[i]?.map (fun p => (p.1 + j * (on + off), p.2)) := by
  have hrepeat := repeatedPulse_length hN (on := on) (off := off) (BitVec.ofNat _ (on + off))
  have hcopy : j * (on + off) + (on + off) ≤ N * (on + off) := by
    rw [← Nat.succ_mul]
    exact Nat.mul_le_mul_right _ hj
  rw [blinkTable, List.getElem?_append_left (by rw [List.length_dropLast, hrepeat]; omega), List.getElem?_dropLast,
    if_pos (by omega), Nat.mul_comm 4 j]
  refine nplicated_tableOf_numbers (blinkPulse_fits hN hend) (blinkPulse_period_lt hN hend) (by omega) hi ?_
  simp only [blinkPulse, List.forall_mem_cons, List.not_mem_nil, false_implies, implies_true, and_true]
  omega

end Blink

/-- Settles O59: the constants are pushed as they stand, and the rise of `MK.BREATHE` is mirrored. -/
theorem presetsBuildTheirTables : Obligations.PresetsBuildTheirTables := by
  intro k hk s
  refine ⟨?_, ?_, fun P hP => ?_⟩
  · obtain ⟨t, hissue, hok, htab⟩ := issue_init_pushes hk s (tableOf (constantPreset 100)) [] (by decide)
    exact ⟨_, t, mkOn_eq k, hissue, hok, htab⟩
  · obtain ⟨t, hissue, hok, htab⟩ := issue_init_pushes hk s (tableOf (constantPreset 0)) [] (by decide)
    exact ⟨_, t, mkOff_eq k, hissue, hok, htab⟩
  · obtain ⟨t, hissue, hok, htab⟩ := issue_init_pushes hk s (tableOf (breatheRise P)) [.tblMirror k]
      (show 4 ≤ Config.CAP by decide)
    obtain ⟨u, hu, huok, hutab⟩ := issue_of_built hk (exec_tblMirror_of_fits hk (s := t)
      (last := breakpointOf (P / 2, 100)) (by rw [htab]; rfl) (by rw [htab]; exact (show 7 ≤ Config.CAP by decide)))
    refine ⟨_, u, mkBreathe_eq hP k, hissue.trans hu, huok, ?_⟩
    rw [hutab, htab]
    exact mirrored_breatheRise_numbers hP

/-- Settles O60: the pulse is repeated at its period, and the last of all entries ends the pause instead. -/
theorem blinkPresetBuildsItsTable : Obligations.BlinkPresetBuildsItsTable := by
  intro k hk N on off pause s hN hcap hend
  obtain ⟨t, hissue, hok, htab⟩ := issue_init_pushes hk s (tableOf (blinkPulse on off)) _
    (show 4 ≤ Config.CAP by decide)
  have hcopies : N - 1 < 2 ^ Config.NW := (show N - 1 < 16 by omega).trans (by decide)
  have hn : (BitVec.ofNat Config.NW (N - 1)).toNat = N - 1 := Nat.mod_eq_of_lt hcopies
  obtain ⟨u, hissue', hok', htab'⟩ := issue_nplicate_pop_push hk (BitVec.ofNat _ (N - 1))
    (breakpointOf (N * (on + off) + pause, 0)) htab (last := breakpointOf (on + off, 0)) rfl
    (show 4 * _ ≤ Config.CAP by rwa [hn, Nat.sub_add_cancel hN])
  rw [hn] at htab'
  refine ⟨_, u, mkBlink_eq hN hend k hcopies, hissue.trans hissue', hok', ?_⟩
  rw [show u.table ⟨k.toNat, hk⟩ = blinkTable N on off pause from htab']
  exact ⟨blinkTable_length hN, blinkTable_last_numbers hend,
    fun j hj i hi hlt => blinkTable_entry_numbers hN hend hj hi hlt⟩

end Sys2Proof.Machine

namespace Sys2Proof.Machine

/-! ## The checked failures of the tables and the sequencers (60_exceptions.md R181, R182) -/

section EmptyTable

variable {s : State}

/-- R154: a throttle tick on a table without an entry faults, after its sample of `clk_ms` and before the embedded
poll. -/
theorem ledPollBody_of_empty {d : Fin Config.NLED} {k : Fin Config.NTBL}
    (h : Config.THROTTLE_MS ≤ (s.clkMs.now - (s.seq d).lastUpd).toNat) (he : s.table k = []) (go : State → State) :
    s.ledPollBody d k go = s.sampledMs.raise .emptyTable := by
  simp [State.ledPollBody, Seq.tick, throttled_of_le h, he]

/-- R160: `LED.CYCLE` looks for an entry before it samples anything. -/
theorem exec_ledCycle_of_empty {d tbl : Unit8} (hd : isSequencer d) (ht : isTable tbl)
    (he : s.table ⟨tbl.toNat, ht⟩ = []) (N : Ms) : exec (.ledCycle d tbl N) s = .next (s.raise .emptyTable) :=
  (onInstance_of_lt hd s _).trans (by simp [instanceOf_of_lt ht, he])

end EmptyTable

/-- Settles O36, raiser by raiser: the three builders past the capacity, then the six commands that find no entry. -/
theorem checkedFailuresRaiseTheirFaults : Obligations.CheckedFailuresRaiseTheirFaults := by
  refine fun k hk s => ⟨fun x y => exec_tblPush_of_full hk x y, exec_tblMirror_of_full hk,
    fun n => exec_tblNplicate_of_full hk n, fun he => ⟨exec_tblInterp_of_empty hk he, exec_tblMirror_of_empty hk he,
      fun n => exec_tblNplicate_of_empty hk n he, exec_tblPop_of_empty hk he, fun d hd N =>
        ⟨exec_ledCycle_of_empty hd hk he N, fun htick => ?_, fun hbetween => ?_⟩⟩⟩
  · rw [exec_ledPoll hd hk, ledPollBody_of_empty htick he]
    rfl
  · rw [exec_ledPoll hd hk, ledPollBody_of_between _ hbetween]
    exact ⟨_, rfl, rfl⟩

/-! ## Faults are precise (60_exceptions.md R184) -/

/-- The state presents no fault: its response, if it has one, is `OK`. -/
def NoFault (t : State) : Prop := ∀ r, t.resp = some r → r.status = .ok

/-- R184: an operation from `s` ends without a fault in `t`, or with nothing of the block written and the block idle. -/
def FaultPrecise (s t : State) : Prop := NoFault t ∨ s.sameBlock t ∧ t.activity = .idle

section Precise

variable {i : Instr} {s t : State}

theorem respond_ok_noFault (s : State) (r0 r1 : Slot) : NoFault (s.respond .ok r0 r1) := by
  rintro r ⟨⟩; rfl

theorem busy_noFault (s : State) (a : Activity) : NoFault (s.busy a) := by rintro r ⟨⟩

theorem raise_faultPrecise (s : State) (st : Status) : FaultPrecise s (s.raise st) :=
  .inr ⟨⟨rfl, rfl, rfl, rfl, rfl⟩, rfl⟩

/-- The body faults before it writes, so it is precise wherever its end, `go`, raises no fault. -/
theorem ledPollBody_faultPrecise (s : State) (d : Fin Config.NLED) (k : Fin Config.NTBL) {go : State → State}
    (hgo : ∀ u, NoFault (go u)) : FaultPrecise s (s.ledPollBody d k go) := by
  obtain h | ⟨-, h⟩ | ⟨-, h⟩ | ⟨last, -, -, h⟩ := ledPollBody_cases s d k go <;> rw [h]
  · exact .inl (hgo _)
  · exact raise_faultPrecise s.sampledMs _
  · exact .inl (busy_noFault _ _)
  · exact .inl (hgo _)

theorem cyclePass_faultPrecise (s : State) (j : CycleJob) : FaultPrecise s (s.cyclePass j) := by
  by_cases h : j.target.toNat ≤ (s.clkMs.now - j.t0).toNat
  · rw [cyclePass_of_reached h]; exact .inl (respond_ok_noFault _ _ _)
  · rw [cyclePass_of_not_reached (Nat.not_le.mp h)]
    exact ledPollBody_faultPrecise s.sampledMs _ _ fun u => busy_noFault u _

/-- Every command takes its faults before its first write (R184). -/
theorem exec_faultPrecise (h : exec i s = .next t) : FaultPrecise s t := by
  obtain hi | hi | hi := opcode_group i.opcode
  · cases i with
    | pwmInit | pwmPoll | pwmSetDuty | pwmSetPeriod =>
      obtain rfl | ⟨c, -, rfl⟩ := onInstance_next h
      · exact raise_faultPrecise s _
      · exact .inl (respond_ok_noFault _ _ _)
    | _ => simp [Instr.opcode, togglerOpcodes] at hi
  · cases tableCommand_outcome hi h with
    | answered => exact .inr ⟨⟨rfl, rfl, rfl, rfl, rfl⟩, rfl⟩
    | built => exact .inl (respond_ok_noFault _ _ _)
  · cases i with
    | ledInit =>
      obtain rfl | ⟨e, q, -, rfl⟩ := execLedInit_next h
      · exact raise_faultPrecise s _
      · exact .inl (respond_ok_noFault _ _ _)
    | ledPoll =>
      obtain ⟨st, rfl⟩ | ⟨d, k, -, rfl⟩ := execLedPoll_next h
      · exact raise_faultPrecise s st
      · exact ledPollBody_faultPrecise s d k fun u => respond_ok_noFault u 0 0
    | ledCycle =>
      obtain ⟨st, rfl⟩ | ⟨j, last, -, -, -, rfl⟩ := execLedCycle_next h
      · exact raise_faultPrecise s st
      · exact cyclePass_faultPrecise s.sampledMs j
    | _ => simp [Instr.opcode, sequencerOpcodes] at hi

end Precise

/-- Settles O56: what a fault leaves of the block, and what it responds. -/
theorem faultsArePrecise : Obligations.FaultsArePrecise := by
  intro i s t r h hr hne
  obtain ⟨hblock, hidle⟩ := (exec_faultPrecise h).resolve_left fun hok => hne (hok r hr)
  obtain ⟨h0, h1⟩ := (exec_noResult h r hr).resolve_left hne
  exact ⟨hblock, h0, h1, hidle⟩

/-- Settles O14: of the two runs that `step_sameButPort` sets side by side, the one from `s` itself. -/
theorem everyStepAnswersANextState : Obligations.EveryStepAnswersANextState := by
  intro s
  obtain ⟨t, -, ht, -⟩ := step_sameButPort s s.port
  exact ⟨t, ht⟩

end Sys2Proof.Machine

namespace Sys2Proof.Machine

/-! ## Steps in which the block takes no command (10_state.md R21, 20_memory.md R65, 70_reset_and_hazards.md R200) -/

section Steps

variable {s : State} {es : List EnvEvent}

theorem applyReset_chan (s : State) (c : Fin Config.NCH) : s.applyReset.chan c = State.reset.chan c :=
  chan_of_chans_eq (applyReset_chans s) c

theorem applyReset_table (s : State) (k : Fin Config.NTBL) : s.applyReset.table k = [] :=
  (table_of_tables_eq (applyReset_tables s) k).trans (reset_table k)

theorem applyReset_seq (s : State) (d : Fin Config.NLED) : s.applyReset.seq d = State.reset.seq d :=
  seq_of_seqs_eq (applyReset_seqs s) d

theorem step_of_reset (h : s.env = .reset :: es) : step s = .next ({ s with env := es } : State).applyReset := by
  simp only [step, h]

theorem step_of_portWrite {m v : Pins} (h : s.env = .portWrite m v :: es) :
    step s = .next (({ s with env := es } : State).quiet.otherAgentWrites m v) := by
  simp only [step, h]

theorem blockStep_of_no_command (hidle : s.activity = .idle) (hcmds : s.cmds = []) : blockStep s = .next s.quiet := by
  simp only [blockStep, hidle, State.takeCommand, quiet_cmds, hcmds]

end Steps

/-- Settles O16: the step is the reset input alone, whatever the activity was, and the register files are those of
`State.reset`. -/
theorem resetInputRestoresTheRegisters : Obligations.ResetInputRestoresTheRegisters := fun _ _ henv =>
  ⟨_, step_of_reset henv, applyReset_chan _, applyReset_table _, applyReset_seq _, rfl, rfl, rfl, rfl, rfl, rfl, rfl⟩

/-- Settles O13: an idle block that is presented no word only drops its mask outputs, and another agent's write comes in
place of the block's step. -/
theorem stepsWithoutACommand : Obligations.StepsWithoutACommand := by
  refine ⟨fun s hu hidle hcmds => ?_, fun s m v es henv => step_of_portWrite henv⟩
  rw [step_of_undisturbed hu]
  exact blockStep_of_no_command (s := { s with env := s.env.tail }) hidle hcmds

/-! ## Commands whose index names no instance (30_encoding.md R88) -/

section IllFormed

variable {i : Instr}

/-- R86, R88: the `unit` is checked against the count of the command's group before all else. -/
theorem exec_of_unit_ge (h : i.opcode.unitCount ≤ i.unit.toNat) (s : State) :
    exec i s = .next (s.raise .illegalCommand) := by
  cases i <;> exact onInstance_of_ge h s _

theorem onInstance_of_illegal {n : Nat} {s : State} {f : Fin n → State} (u : Unit8)
    (hf : ∀ k, f k = s.raise .illegalCommand) : onInstance n u s f = .next (s.raise .illegalCommand) := by
  obtain h | ⟨k, -, h⟩ := onInstance_cases u s f
  · exact h
  · rw [h, hf k]

/-- R88: a `tbl` operand that names no table is found before a clock is sampled or a table read. -/
theorem exec_of_table_ge (hi : i.opcode.hasTable = true) (h : Config.NTBL ≤ (encode i).slotA.toNat) (s : State) :
    exec i s = .next (s.raise .illegalCommand) := by
  cases i with
  | ledPoll d tbl | ledCycle d tbl =>
    have htbl : Config.NTBL ≤ tbl.toNat := by simpa [encode] using h
    exact onInstance_of_illegal d fun _ => by simp only [instanceOf_of_ge htbl]
  | _ => cases hi

end IllFormed

/-- Settles O8: an ill-formed command has its `unit` out of range, or its `tbl` operand. -/
theorem illFormedCommandsAnswerIllegal : Obligations.IllFormedCommandsAnswerIllegal := by
  intro i s hwf
  by_cases hunit : i.unit.toNat < i.opcode.unitCount
  · have htable : ¬ (i.opcode.hasTable = true → (encode i).slotA.toNat < Config.NTBL) := fun h =>
      Bool.eq_false_iff.mp hwf ((wf_iff i).mpr ⟨hunit, h⟩)
    obtain ⟨hi, hge⟩ := Classical.not_imp.mp htable
    exact exec_of_table_ge hi (Nat.not_lt.mp hge) s
  · exact exec_of_unit_ge (Nat.not_lt.mp hunit) s

end Sys2Proof.Machine
